-- ==== Sys2Proof/Word.lean ====
section
/-! DEFINITION. Word.lean: the words, bytes, register indices and texts of the model (00_scope.md R7, R8, R9). -/

namespace Sys2Proof

/-- The instruction word: "an unsigned 16-bit value" (R7, R9), bit 0 the least significant (R8). -/
abbrev Word := BitVec 16

/-- A byte of the input stream (R41), a byte operand or a full-low-byte selector (R73). -/
abbrev Byte := BitVec 8

/-- A 12-bit address operand (R72). -/
abbrev Addr := BitVec 12

/-- A 4-bit register index (R74, R75); all 16 values are legal (R23). -/
abbrev RegIdx := BitVec 4

/-- A 4-bit low nibble (R76). -/
abbrev Nibble := BitVec 4

/-- A sequence of ASCII characters (00_scope.md section 4; R100: a list). -/
abbrev Text := List Char

end Sys2Proof
end

