-- ==== Sys2Proof/Config.lean ====
section
/-! DEFINITION. Config.lean: the parameters of the block and its host (R7), the OPEN ones as opaque constants with no body. -/

namespace Sys2Proof

/-- A printable ASCII character or a space (R116). -/
def isPrintable (c : Char) : Bool := 0x20 ≤ c.toNat && c.toNat ≤ 0x7E

/-- What R116 asks of a rendered text: only printable ASCII characters and spaces (so no tab and no newline), and no
leading or trailing whitespace. -/
def isLegalText (t : Text) : Bool :=
  t.all isPrintable && t.head? != some ' ' && t.getLast? != some ' '

/-- A non-empty text that obeys R116: all that R219 item 2 lets a model assume of an `FX_TEXT`. The default of the field
`text` only shows that the type has a member: no definition of the machine uses it. -/
structure FxString where
  text     : Text := ['?']
  nonEmpty : text ≠ [] := by decide
  legal    : isLegalText text = true := by decide
deriving DecidableEq, Repr, Inhabited

/-- An output stream of the host's process. -/
inductive OutStream where
  | stdout | stderr
deriving DecidableEq, Repr, Inhabited

namespace Config

/-- `FX_TEXT(kk, x)`, OPEN (R219, D5): the text of the `Fx` form with selector `kk` and first register index `x`. A function
of the two alone (R219 item 1), a non-empty text that obeys R116 (item 2). Assumption log 4. -/
opaque fxString : Byte → RegIdx → FxString

/-- The text of `FX_TEXT(kk, x)`. -/
def fxText (kk : Byte) (x : RegIdx) : Text := (fxString kk x).text

/-- `USAGE_TEXT(progname)`, OPEN (R247, D19). Assumption log 5. -/
opaque usageText : Text → Text

/-- `OPEN_ERR_TEXT(path)`, OPEN (R248, D19). Assumption log 5. -/
opaque openErrText : Text → Text

/-- `OPEN_ERR_STREAM`, OPEN: the stream that receives the open-error message (R248, D19). Assumption log 5. -/
opaque openErrStream : OutStream

/-- The entry point that the command-line program passes: 0x200 (R261, D9). -/
def cliEntry : Nat := 0x200

/-- The nine selector bytes of primary 0xF, in order of template id (R108, R220). -/
def fxSel : List Byte := [0x07, 0x0A, 0x15, 0x18, 0x1E, 0x29, 0x33, 0x55, 0x65]

/-- The sixteen register indices (R22). -/
def allRegs : List RegIdx := [0x0, 0x1, 0x2, 0x3, 0x4, 0x5, 0x6, 0x7, 0x8, 0x9, 0xA, 0xB, 0xC, 0xD, 0xE, 0xF]

/-- `TEXT_MAX` for a given `FX_TEXT`: the larger of 18 and the longest text that it can produce (R119). -/
def textMaxOf (fx : Byte → RegIdx → Text) : Nat :=
  (fxSel.map fun kk => (allRegs.map fun x => (fx kk x).length).foldl max 0).foldl max 18

/-- `TEXT_MAX` (R119) of the machine, whose `FX_TEXT` is open. -/
def textMax : Nat := textMaxOf fxText

end Config

end Sys2Proof
end

