-- ==== Sys2Proof/Syntax.lean ====
section
/-! DEFINITION. Syntax.lean: one constructor for each row of spec/opcode_table.json (R79), with every operand field of its word. -/

namespace Sys2Proof

/-- The 35 recognized rows of the opcode map (R79), in order of template id. An instruction carries the raw values of its
fields (R78). `cls` and `ret` carry the four bits `x` that their rows neither test nor render (R84), because the field
outputs and the listing show them all the same (R102, R51). -/
inductive Instr where
  | cls (x : RegIdx)                            -- 0xE0  R140
  | ret (x : RegIdx)                            -- 0xEE  R141
  | sys (nnn : Addr)                            -- 0nnn  R142
  | jp (nnn : Addr)                             -- 1nnn  R143
  | call (nnn : Addr)                           -- 2nnn  R144
  | seByte (x : RegIdx) (kk : Byte)             -- 3xkk  R145
  | sneByte (x : RegIdx) (kk : Byte)            -- 4xkk  R146
  | seReg (x y : RegIdx)                        -- 5xy0  R160
  | ldByte (x : RegIdx) (kk : Byte)             -- 6xkk  R161
  | addByte (x : RegIdx) (kk : Byte)            -- 7xkk  R162
  | ldReg (x y : RegIdx)                        -- 8xy0  R170
  | orReg (x y : RegIdx)                        -- 8xy1  R171
  | andReg (x y : RegIdx)                       -- 8xy2  R172
  | xorReg (x y : RegIdx)                       -- 8xy3  R173
  | addReg (x y : RegIdx)                       -- 8xy4  R174
  | subReg (x y : RegIdx)                       -- 8xy5  R175
  | shrReg (x y : RegIdx)                       -- 8xy6  R176
  | subnReg (x y : RegIdx)                      -- 8xy7  R177
  | shlReg (x y : RegIdx)                       -- 8xyE  R178
  | sneReg (x y : RegIdx)                       -- 9xy0  R190
  | ldI (nnn : Addr)                            -- Annn  R191
  | jpV0 (nnn : Addr)                           -- Bnnn  R192
  | rnd (x : RegIdx) (kk : Byte)                -- Cxkk  R193
  | drw (x y : RegIdx) (n : Nibble)             -- Dxyn  R194
  | skp (x : RegIdx)                            -- Ex9E  R200
  | sknp (x : RegIdx)                           -- ExA1  R201
  | fx07 (x : RegIdx)                           -- Fx07  R210
  | fx0A (x : RegIdx)                           -- Fx0A  R211
  | fx15 (x : RegIdx)                           -- Fx15  R212
  | fx18 (x : RegIdx)                           -- Fx18  R213
  | fx1E (x : RegIdx)                           -- Fx1E  R214
  | fx29 (x : RegIdx)                           -- Fx29  R215
  | fx33 (x : RegIdx)                           -- Fx33  R216
  | fx55 (x : RegIdx)                           -- Fx55  R217
  | fx65 (x : RegIdx)                           -- Fx65  R218
deriving DecidableEq, Repr

end Sys2Proof
end

