-- ==== Sys2Proof/WellFormed.lean ====
section
/-! DEFINITION. WellFormed.lean: which terms of Instr stand for a word. -/

namespace Sys2Proof

/-- The low byte of a 12-bit address operand: where primary 0x0 has its secondary selector (R73, R80). -/
def Addr.lowByte (nnn : Addr) : Byte := nnn.extractLsb' 0 8

/-- The one check that the fields' widths do not already make: a `SYS` word's low byte is neither 0xE0 nor 0xEE, since those
words are `CLS` and `RET` (R142, R85). Every value of every other field is legal (R23, R78). -/
def Instr.wellFormed : Instr → Bool
  | .sys nnn => Addr.lowByte nnn != 0xE0#8 && Addr.lowByte nnn != 0xEE#8
  | .cls _ | .ret _ | .jp _ | .call _ | .seByte _ _ | .sneByte _ _ | .seReg _ _ | .ldByte _ _ | .addByte _ _
  | .ldReg _ _ | .orReg _ _ | .andReg _ _ | .xorReg _ _ | .addReg _ _ | .subReg _ _ | .shrReg _ _ | .subnReg _ _
  | .shlReg _ _ | .sneReg _ _ | .ldI _ | .jpV0 _ | .rnd _ _ | .drw _ _ _ | .skp _ | .sknp _ | .fx07 _ | .fx0A _
  | .fx15 _ | .fx18 _ | .fx1E _ | .fx29 _ | .fx33 _ | .fx55 _ | .fx65 _ => true

end Sys2Proof
end

