-- ==== Sys2Proof/Decode.lean ====
section
/-! DEFINITION. Decode.lean: the fields of a word, the two-level dispatch from a word or from bytes to an instruction, the opcode
table as rows of mask and match, and the encoder. -/

namespace Sys2Proof

/-! ### The six fields of a word (R71 to R76) -/

/-- `op = w[15:12]` (R71). -/
def opField (w : Word) : BitVec 4 := w.extractLsb' 12 4

/-- `nnn = w[11:0]` (R72). -/
def nnnField (w : Word) : Addr := w.extractLsb' 0 12

/-- `kk = w[7:0]` (R73). -/
def kkField (w : Word) : Byte := w.extractLsb' 0 8

/-- `x = w[11:8]` (R74). -/
def xField (w : Word) : RegIdx := w.extractLsb' 8 4

/-- `y = w[7:4]` (R75). -/
def yField (w : Word) : RegIdx := w.extractLsb' 4 4

/-- `n = w[3:0]` (R76). -/
def nField (w : Word) : Nibble := w.extractLsb' 0 4

/-- A record's word: `b0` is `w[15:8]` and `b1` is `w[7:0]`, big-endian (R43). -/
def wordOfBytes (b0 b1 : Byte) : Word := b0 ++ b1

/-- The byte of a word that stands first in the stream (R43). -/
def highByte (w : Word) : Byte := w.extractLsb' 8 8

/-- The byte of a word that stands second in the stream (R43). -/
def lowByte (w : Word) : Byte := w.extractLsb' 0 8

/-! ### Dispatch (R103, R104, R108) -/

/-- The spaces of words for which no row of the opcode map applies (R82, R241). -/
inductive UnrecognizedSpace where
  | op5   -- `5xyn`, n != 0                              (R160)
  | op8   -- `8xyn`, n in 8, 9, A, B, C, D, F            (R179)
  | op9   -- `9xyn`, n != 0                              (R190)
  | opE   -- `Exkk`, kk neither 9E nor A1                (R202)
  | opF   -- `Fxkk`, kk not in FXSEL                     (R220)
deriving DecidableEq, Repr

/-- Why bytes decode to no instruction. -/
inductive Reject where
  | shortRecord                              -- fewer than 2 bytes: no word at all (R44)
  | unrecognized (space : UnrecognizedSpace) -- a word that no row matches (R107, R241)
deriving DecidableEq, Repr

/-- Primary 0x0: the full low byte, `CLS` and `RET` before `SYS` (R140 to R142, R85). -/
def decodeOp0 (w : Word) : Except Reject Instr :=
  if kkField w = 0xE0#8 then .ok (.cls (xField w))
  else if kkField w = 0xEE#8 then .ok (.ret (xField w))
  else .ok (.sys (nnnField w))

/-- Primary 0x5: the low nibble (R160). -/
def decodeOp5 (w : Word) : Except Reject Instr :=
  if nField w = 0x0#4 then .ok (.seReg (xField w) (yField w)) else .error (.unrecognized .op5)

/-- Primary 0x8: the low nibble (R170 to R179). -/
def decodeOp8 (w : Word) : Except Reject Instr :=
  match (nField w).toNat with
  | 0x0 => .ok (.ldReg (xField w) (yField w))
  | 0x1 => .ok (.orReg (xField w) (yField w))
  | 0x2 => .ok (.andReg (xField w) (yField w))
  | 0x3 => .ok (.xorReg (xField w) (yField w))
  | 0x4 => .ok (.addReg (xField w) (yField w))
  | 0x5 => .ok (.subReg (xField w) (yField w))
  | 0x6 => .ok (.shrReg (xField w) (yField w))
  | 0x7 => .ok (.subnReg (xField w) (yField w))
  | 0xE => .ok (.shlReg (xField w) (yField w))
  | _   => .error (.unrecognized .op8)

/-- Primary 0x9: the low nibble (R190). -/
def decodeOp9 (w : Word) : Except Reject Instr :=
  if nField w = 0x0#4 then .ok (.sneReg (xField w) (yField w)) else .error (.unrecognized .op9)

/-- Primary 0xE: the full low byte (R200 to R202). -/
def decodeOpE (w : Word) : Except Reject Instr :=
  if kkField w = 0x9E#8 then .ok (.skp (xField w))
  else if kkField w = 0xA1#8 then .ok (.sknp (xField w))
  else .error (.unrecognized .opE)

/-- Primary 0xF: the full low byte (R210 to R218, R220). -/
def decodeOpF (w : Word) : Except Reject Instr :=
  match (kkField w).toNat with
  | 0x07 => .ok (.fx07 (xField w))
  | 0x0A => .ok (.fx0A (xField w))
  | 0x15 => .ok (.fx15 (xField w))
  | 0x18 => .ok (.fx18 (xField w))
  | 0x1E => .ok (.fx1E (xField w))
  | 0x29 => .ok (.fx29 (xField w))
  | 0x33 => .ok (.fx33 (xField w))
  | 0x55 => .ok (.fx55 (xField w))
  | 0x65 => .ok (.fx65 (xField w))
  | _    => .error (.unrecognized .opF)

/-- The two-level dispatch (R103, R104): the primary opcode first, then the secondary selector of the primaries that have one.
Each of the 16 primaries has an arm of its own: the last arm is 0xF, the one value left (R83). -/
def decode (w : Word) : Except Reject Instr :=
  match (opField w).toNat with
  | 0x0 => decodeOp0 w
  | 0x1 => .ok (.jp (nnnField w))
  | 0x2 => .ok (.call (nnnField w))
  | 0x3 => .ok (.seByte (xField w) (kkField w))
  | 0x4 => .ok (.sneByte (xField w) (kkField w))
  | 0x5 => decodeOp5 w
  | 0x6 => .ok (.ldByte (xField w) (kkField w))
  | 0x7 => .ok (.addByte (xField w) (kkField w))
  | 0x8 => decodeOp8 w
  | 0x9 => decodeOp9 w
  | 0xA => .ok (.ldI (nnnField w))
  | 0xB => .ok (.jpV0 (nnnField w))
  | 0xC => .ok (.rnd (xField w) (kkField w))
  | 0xD => .ok (.drw (xField w) (yField w) (nField w))
  | 0xE => decodeOpE w
  | _   => decodeOpF w

/-- The decoder on bytes: the first record's instruction and the bytes after it. Every instruction is one 2-byte record (R70, R42),
and fewer than two bytes are no word (R44). -/
def decodeBytes : List Byte → Except Reject (Instr × List Byte)
  | b0 :: b1 :: rest =>
    match decode (wordOfBytes b0 b1) with
    | .ok i => .ok (i, rest)
    | .error e => .error e
  | _ => .error .shortRecord

/-- The bytes of the stream that hold the word whose table bits are `w`, the bits above `nbits` zero (R43: high byte first). -/
def tableBytes (nbits w : Nat) : List Byte :=
  let v : Word := BitVec.ofNat 16 (w % 2 ^ nbits)
  [highByte v, lowByte v]

/-- The instruction that the decoder reads from the word whose bits, numbered as spec/opcode_table.json numbers them, are `w`. -/
def decodeTableWord (nbits w : Nat) : Option Instr :=
  match decodeBytes (tableBytes nbits w) with
  | .ok (i, _) => some i
  | .error _ => none

/-! ### The opcode table, as rows of mask and match (R79, spec/opcode_table.json), and the template demultiplexer (R105) -/

/-- A row of the opcode table: its template id, the bits it tests, their values, and the low bytes it leaves to other rows. -/
structure TableRow where
  tid      : Nat
  mask     : Word
  value    : Word
  excludes : List Byte
deriving DecidableEq, Repr

/-- The rows of primaries 0x0 to 0x7 (R140 to R146, R160 to R162). -/
def rowsOp0To7 : List TableRow :=
  [⟨1, 0xF0FF, 0x00E0, []⟩, ⟨2, 0xF0FF, 0x00EE, []⟩, ⟨3, 0xF000, 0x0000, [0xE0, 0xEE]⟩, ⟨4, 0xF000, 0x1000, []⟩,
   ⟨5, 0xF000, 0x2000, []⟩, ⟨6, 0xF000, 0x3000, []⟩, ⟨7, 0xF000, 0x4000, []⟩, ⟨8, 0xF00F, 0x5000, []⟩,
   ⟨9, 0xF000, 0x6000, []⟩, ⟨10, 0xF000, 0x7000, []⟩]

/-- The rows of primary 0x8 (R170 to R178). -/
def rowsOp8 : List TableRow :=
  [⟨11, 0xF00F, 0x8000, []⟩, ⟨12, 0xF00F, 0x8001, []⟩, ⟨13, 0xF00F, 0x8002, []⟩, ⟨14, 0xF00F, 0x8003, []⟩,
   ⟨15, 0xF00F, 0x8004, []⟩, ⟨16, 0xF00F, 0x8005, []⟩, ⟨17, 0xF00F, 0x8006, []⟩, ⟨18, 0xF00F, 0x8007, []⟩,
   ⟨19, 0xF00F, 0x800E, []⟩]

/-- The rows of primaries 0x9 to 0xF (R190 to R194, R200, R201, R210 to R218). -/
def rowsOp9ToF : List TableRow :=
  [⟨20, 0xF00F, 0x9000, []⟩, ⟨21, 0xF000, 0xA000, []⟩, ⟨22, 0xF000, 0xB000, []⟩, ⟨23, 0xF000, 0xC000, []⟩,
   ⟨24, 0xF000, 0xD000, []⟩, ⟨25, 0xF0FF, 0xE09E, []⟩, ⟨26, 0xF0FF, 0xE0A1, []⟩, ⟨27, 0xF0FF, 0xF007, []⟩,
   ⟨28, 0xF0FF, 0xF00A, []⟩, ⟨29, 0xF0FF, 0xF015, []⟩, ⟨30, 0xF0FF, 0xF018, []⟩, ⟨31, 0xF0FF, 0xF01E, []⟩,
   ⟨32, 0xF0FF, 0xF029, []⟩, ⟨33, 0xF0FF, 0xF033, []⟩, ⟨34, 0xF0FF, 0xF055, []⟩, ⟨35, 0xF0FF, 0xF065, []⟩]

/-- The 35 rows (R79). -/
def tableRows : List TableRow := rowsOp0To7 ++ rowsOp8 ++ rowsOp9ToF

/-- A word matches a row: the tested bits have the row's values and the low byte is not one that the row leaves out (R142). -/
def TableRow.accepts (r : TableRow) (w : Word) : Bool := (w &&& r.mask) == r.value && !r.excludes.contains (kkField w)

/-- The demultiplexer's output `sel[t]` for the word `w` (R105): for `t` in 1 to 35, the row with template id `t` matches;
for 0, no row matches. There is no output above 35. -/
def sel (w : Word) (t : Nat) : Bool :=
  if t = 0 then tableRows.all fun r => !r.accepts w
  else tableRows.any fun r => r.tid == t && r.accepts w

/-! ### The encoder (from the encodings of R79) -/

/-- The word of an instruction: its row's fixed bits and its fields, high bits first. -/
def encode : Instr → Word
  | .cls x       => 0x0#4 ++ x ++ 0xE0#8
  | .ret x       => 0x0#4 ++ x ++ 0xEE#8
  | .sys nnn     => 0x0#4 ++ nnn
  | .jp nnn      => 0x1#4 ++ nnn
  | .call nnn    => 0x2#4 ++ nnn
  | .seByte x kk => 0x3#4 ++ x ++ kk
  | .sneByte x kk => 0x4#4 ++ x ++ kk
  | .seReg x y   => 0x5#4 ++ x ++ y ++ 0x0#4
  | .ldByte x kk => 0x6#4 ++ x ++ kk
  | .addByte x kk => 0x7#4 ++ x ++ kk
  | .ldReg x y   => 0x8#4 ++ x ++ y ++ 0x0#4
  | .orReg x y   => 0x8#4 ++ x ++ y ++ 0x1#4
  | .andReg x y  => 0x8#4 ++ x ++ y ++ 0x2#4
  | .xorReg x y  => 0x8#4 ++ x ++ y ++ 0x3#4
  | .addReg x y  => 0x8#4 ++ x ++ y ++ 0x4#4
  | .subReg x y  => 0x8#4 ++ x ++ y ++ 0x5#4
  | .shrReg x y  => 0x8#4 ++ x ++ y ++ 0x6#4
  | .subnReg x y => 0x8#4 ++ x ++ y ++ 0x7#4
  | .shlReg x y  => 0x8#4 ++ x ++ y ++ 0xE#4
  | .sneReg x y  => 0x9#4 ++ x ++ y ++ 0x0#4
  | .ldI nnn     => 0xA#4 ++ nnn
  | .jpV0 nnn    => 0xB#4 ++ nnn
  | .rnd x kk    => 0xC#4 ++ x ++ kk
  | .drw x y n   => 0xD#4 ++ x ++ y ++ n
  | .skp x       => 0xE#4 ++ x ++ 0x9E#8
  | .sknp x      => 0xE#4 ++ x ++ 0xA1#8
  | .fx07 x      => 0xF#4 ++ x ++ 0x07#8
  | .fx0A x      => 0xF#4 ++ x ++ 0x0A#8
  | .fx15 x      => 0xF#4 ++ x ++ 0x15#8
  | .fx18 x      => 0xF#4 ++ x ++ 0x18#8
  | .fx1E x      => 0xF#4 ++ x ++ 0x1E#8
  | .fx29 x      => 0xF#4 ++ x ++ 0x29#8
  | .fx33 x      => 0xF#4 ++ x ++ 0x33#8
  | .fx55 x      => 0xF#4 ++ x ++ 0x55#8
  | .fx65 x      => 0xF#4 ++ x ++ 0x65#8

/-- The bytes of an instruction as the stream holds them (R43). -/
def encodeBytes (i : Instr) : List Byte := [highByte (encode i), lowByte (encode i)]

end Sys2Proof
end

