-- ==== Sys2Proof/Machine/State.lean ====
section
/-! DEFINITION. Machine/State.lean: the decoder block's ports, the Driver's state and its inputs as plain data, and the reset state. -/

namespace Sys2Proof.Machine

/-- The result of a decode (R117): a template id of 1 to 35 (D3) and the rendered text, or Unrecognized. -/
inductive DecodeResult where
  | recognized (tid : BitVec 6) (text : Text)
  | unrecognized
deriving DecidableEq, Repr

/-- The block's ports (R100): the word at its input, and its outputs. The block itself holds no state (R20): this record is what
stands on its wires for the word that the host last drove on `insn` (assumption log 1). -/
structure Ports where
  insn  : Word      -- in: the instruction word `w`
  valid : Bool      -- out: 1 when the result is Recognized
  tid   : BitVec 6  -- out: the template id, 0 when Unrecognized
  fOp   : BitVec 4  -- out: `w[15:12]`
  fX    : RegIdx    -- out: `w[11:8]`
  fY    : RegIdx    -- out: `w[7:4]`
  fN    : Nibble    -- out: `w[3:0]`
  fKk   : Byte      -- out: `w[7:0]`
  fNnn  : Addr      -- out: `w[11:0]`
  text  : Text      -- out: the rendered mnemonic, empty when Unrecognized
deriving DecidableEq, Repr

/-- A stream's bytes by byte offset (R41): pairs of offset and byte, the offsets strictly rising. An offset that is not listed has
no byte: it is past the end of the file (R44). -/
abbrev Memory := List Host.Cell

/-- A file that can be opened for reading, by its path (R41, R248). -/
structure FileEntry where
  path     : Text
  contents : Memory
deriving DecidableEq, Repr

/-- Where the Driver is in its run (R263, R49): the actions of R263 in order, the main loop, the end with its exit code. -/
inductive Phase where
  | checkArgs          -- next: check that there is exactly one argument (R263 item 1, R247)
  | openFile           -- next: open the file (R263 item 2, R248)
  | initCounter        -- next: set the counter to ENTRY (R263 item 3, R261)
  | loop               -- next: one record of the main loop (R49)
  | exited (code : Nat) -- the run has ended with this exit code (R247, R248, R250)
deriving DecidableEq, Repr

/-- The whole listing machine: the host's inputs, the Driver's own state, the block's ports and the host's outputs. -/
structure State where
  progName    : Text             -- input: the invoked program's name (R247)
  argv        : List Text        -- input: the positional arguments (R247)
  disk        : List FileEntry   -- input: the files that can be opened for reading (R248)
  entry       : Nat              -- parameter of the Driver contract: ENTRY (R261)
  readFailsAt : Option Nat       -- input: the first offset that the medium fails to read, if any (R45)
  phase       : Phase            -- where the run is (R263, R49)
  streamHeld  : Bool             -- the input stream is acquired and not yet released (R251)
  stream      : Memory           -- the open file's bytes (R30, R41)
  pos         : Nat              -- the read position, a byte offset (R30)
  counter     : Nat              -- AddressCounter (R28), unbounded (D8)
  ports       : Ports            -- the block's ports (R100)
  stdout      : Text             -- what the host has written to standard output (R51, R247)
  stderr      : Text             -- what the host has written to standard error (R248)
deriving DecidableEq, Repr

/-- Why a step has no next state. -/
inductive Fault where
  /-- Raised by `step` alone, when the run has already ended: the process has exited and no state outlives it (R31, R252). Safe: a
  stop where there is nothing left to do. -/
  | runEnded
deriving DecidableEq, Repr

/-- Why an instruction has no meaning. -/
inductive Refusal where
  /-- Raised by `exec` alone, in the arm of an instruction that has no meaning yet; no arm does. Safe. -/
  | notModelled (mnemonic : String)
deriving DecidableEq, Repr

/-- What the block's outputs are while its input is the word 0x0000: `SYS 0x000` (R142). -/
def Ports.ofZeroWord : Ports :=
  { insn := 0, valid := true, tid := 3, fOp := 0, fX := 0, fY := 0, fN := 0, fKk := 0, fNnn := 0,
    text := ['S', 'Y', 'S', ' ', '0', 'x', '0', '0', '0'] }

/-- The start of a run (R261): the counter at ENTRY = 0x200, stream position 0, no line printed. The block has no reset (R260): its
outputs are those of the word at its input, here 0x0000 (assumption log 2). No input is given yet (assumption log 3). -/
def State.reset : State :=
  { progName := [], argv := [], disk := [], entry := Config.cliEntry, readFailsAt := none, phase := .checkArgs,
    streamHeld := false, stream := [], pos := 0, counter := Config.cliEntry, ports := Ports.ofZeroWord, stdout := [], stderr := [] }

end Sys2Proof.Machine
end

