-- ==== Sys2Proof/Machine/Flags.lean ====
section
/-! DEFINITION. Machine/Flags.lean: the block has no flags (R27); here are its status output `valid`, its field outputs and the
values of all its ports for either outcome (R100, R102, R107). -/

namespace Sys2Proof.Machine

/-- `valid` is 1 exactly when the template id is not 0 (R105, R107, D3). -/
def validOf (tid : BitVec 6) : Bool := tid != 0#6

/-- The ports with the word `w` at the input, the template id and the text: the field outputs are wires from the input, gated by
neither `valid` nor `tid` (R102). -/
def Ports.drive (w : Word) (tid : BitVec 6) (text : Text) : Ports :=
  { insn := w, valid := validOf tid, tid := tid, fOp := opField w, fX := xField w, fY := yField w, fN := nField w,
    fKk := kkField w, fNnn := nnnField w, text := text }

/-- The ports for an Unrecognized word: `valid = 0`, `tid = 0`, an empty text, the slices of the word (R107). -/
def Ports.unrecognized (w : Word) : Ports := Ports.drive w 0#6 []

/-- The decode result that the outputs show (R117, R108). -/
def Ports.result (p : Ports) : DecodeResult :=
  if p.valid then .recognized p.tid p.text else .unrecognized

end Sys2Proof.Machine
end

