-- ==== Sys2Proof/Machine/Operands.lean ====
section
/-! DEFINITION. Machine/Operands.lean: the renderers of the operand forms and the assembly of a template's text (R110 to R115). -/

namespace Sys2Proof.Machine

/-- A digit below 16 as a character: `0` to `9`, uppercase `A` to `F` (R114). -/
def digitChar (d : Nat) : Char := if d < 10 then Char.ofNat (0x30 + d) else Char.ofNat (0x37 + d)

/-- `hexK(v)`: exactly `k` hexadecimal digits, most significant first, zero-padded (00_scope.md section 4, R114). -/
def hexFixed : Nat → Nat → Text
  | 0, _ => []
  | k + 1, v => hexFixed k (v / 16) ++ [digitChar (v % 16)]

/-- The digits of `v` in a base of 2 to 16 with no leading zero; the first argument bounds the recursion. -/
def digitsFuel (base : Nat) : Nat → Nat → Text
  | 0, _ => []
  | fuel + 1, v => if v < base then [digitChar v] else digitsFuel base fuel (v / base) ++ [digitChar (v % base)]

/-- The digits of `v` in a base of 2 to 16, most significant first, as many as it needs and at least one. -/
def digits (base v : Nat) : Text := digitsFuel base (v + 1) v

/-- `dec(v)`: unsigned decimal, no leading zeros (R111). -/
def dec (v : Nat) : Text := digits 10 v

/-- `reg(i) = "V" ++ hex1(i)` (R110, R22). -/
def reg (i : RegIdx) : Text := 'V' :: hexFixed 1 i.toNat

/-- `byte(v) = "0x" ++ hex2(v) ++ " (" ++ dec(v) ++ ")"` (R111). -/
def byte (v : Byte) : Text := ['0', 'x'] ++ hexFixed 2 v.toNat ++ [' ', '('] ++ dec v.toNat ++ [')']

/-- `addr(v) = "0x" ++ hex3(v)` (R112). -/
def addr (v : Addr) : Text := ['0', 'x'] ++ hexFixed 3 v.toNat

/-- `nib(v) = "0x" ++ hex1(v)` (R113). -/
def nib (v : Nibble) : Text := ['0', 'x'] ++ hexFixed 1 v.toNat

/-- The literal operand `I` of `LD I, addr`: text, not an index (R24). -/
def litI : Text := ['I']

/-- The literal operand `V0` of `JP V0, addr`: not taken from field `x` (R24, R192). -/
def litV0 : Text := ['V', '0']

/-- `join(", ", ops)` (00_scope.md section 4). -/
def joinOps : List Text → Text
  | [] => []
  | [a] => a
  | a :: b :: rest => a ++ [',', ' '] ++ joinOps (b :: rest)

/-- A template's text: the mnemonic alone, or the mnemonic, one space and the operands (R115). -/
def render (mnemonic : Text) (ops : List Text) : Text :=
  match ops with
  | [] => mnemonic
  | _ :: _ => mnemonic ++ [' '] ++ joinOps ops

end Sys2Proof.Machine
end

