-- ==== Sys2Proof/Machine/Listing.lean ====
section
/-! DEFINITION. Machine/Listing.lean: the line that the host prints for a record (R51, R52). -/

namespace Sys2Proof.Machine

/-- `hexA(c)`: uppercase hexadecimal, zero-padded to at least 3 digits, never truncated (R49, R51, D8). -/
def hexA (c : Nat) : Text :=
  let d := digits 16 c
  List.replicate (3 - d.length) '0' ++ d

/-- `WORD4`: the raw instruction word in 4 digits (R51). -/
def word4 (w : Word) : Text := hexFixed 4 w.toNat

/-- What the host shows for an Unrecognized word: three question marks (R52). -/
def placeholder : Text := ['?', '?', '?']

/-- `0x<ADDR3>:\t0x<WORD4>\t<TEXT>\n` (R51). -/
def listingLine (c : Nat) (w : Word) (text : Text) : Text :=
  ['0', 'x'] ++ hexA c ++ [':', '\t', '0', 'x'] ++ word4 w ++ ['\t'] ++ text ++ ['\n']

end Sys2Proof.Machine
end

