-- ==== Sys2Proof/Machine/Ops.lean ====
section
/-! DEFINITION. Machine/Ops.lean: the operations over the input stream, the updates of the state, the two outcomes of a decode,
and the end of a run. -/

namespace Sys2Proof.Machine

/-! ### The bytes of a stream (R41 to R44) -/

/-- The canonical form: the offsets strictly rise. Every listed offset has a byte and an unlisted one has none, so no entry can
equal what an unlisted offset reads as. -/
def Memory.wf : Memory → Bool
  | [] => true
  | [_] => true
  | a :: b :: rest => a.1 < b.1 && Memory.wf (b :: rest)

/-- The byte at an offset; none past the end of the file (R44). -/
def Memory.read : Memory → Nat → Option Byte
  | [], _ => none
  | c :: rest, a => if c.1 = a then some c.2 else Memory.read rest a

/-- Put a byte at an offset, keeping the canonical form. Nothing writes to a stream during a run (R41, R55): this is for what
prepares a run from outside. -/
def Memory.write : Memory → Nat → Byte → Memory
  | [], a, v => [(a, v)]
  | c :: rest, a, v =>
    if a < c.1 then (a, v) :: c :: rest
    else if a = c.1 then (a, v) :: rest
    else c :: Memory.write rest a v

/-- The cells of a contiguous sequence of bytes from an offset on. -/
def Memory.fromOffset : Nat → List Byte → Memory
  | _, [] => []
  | a, v :: rest => (a, v) :: Memory.fromOffset (a + 1) rest

/-- A file's contents: a contiguous sequence of bytes, addressed by byte offset from 0 (R41). -/
def Memory.ofBytes (bytes : List Byte) : Memory := Memory.fromOffset 0 bytes

/-- The cells are a contiguous sequence from offset 0, as a file's are (R41). -/
def Memory.isFile (m : Memory) : Bool := m == Memory.ofBytes (m.map fun c => c.2)

/-! ### Updates of the state -/

/-- Write to one of the process's output streams, after what is already there. -/
def State.print (s : State) (o : OutStream) (t : Text) : State :=
  match o with
  | .stdout => { s with stdout := s.stdout ++ t }
  | .stderr => { s with stderr := s.stderr ++ t }

/-- The word on `insn` and what the block answers on its outputs. -/
def State.withPorts (s : State) (p : Ports) : State := { s with ports := p }

/-- Move the AddressCounter (R28). -/
def State.withCounter (s : State) (c : Nat) : State := { s with counter := c }

/-- Go to another place of the run (R263). -/
def State.withPhase (s : State) (p : Phase) : State := { s with phase := p }

/-- The read position moves by 2 bytes per complete record (R30, R43). -/
def State.advance (s : State) : State := { s with pos := s.pos + 2 }

/-- Acquire the input stream: the opened file's bytes, at offset 0 (R251, R261). -/
def State.acquire (s : State) (m : Memory) : State := { s with stream := m, pos := 0, streamHeld := true }

/-- Release the input stream (R251). -/
def State.release (s : State) : State := { s with streamHeld := false }

/-! ### Reading a record (R42 to R46) -/

/-- The read of the record at the position fails: the medium cannot read one of its two bytes (R45). -/
def State.readFails (s : State) : Bool :=
  match s.readFailsAt with
  | none => false
  | some f => f < s.pos + 2

/-- `ReadRecord()` (R43): the word and the state with the position moved on, or none at the end of the stream (R44) and where the
read fails, which is treated identically (R45). -/
def readRecord (s : State) : Option (Word × State) :=
  if s.readFails then none
  else
    match Memory.read s.stream s.pos, Memory.read s.stream (s.pos + 1) with
    | some b0, some b1 => some (wordOfBytes b0 b1, s.advance)
    | _, _ => none

/-! ### The two outcomes of a decode (R108, R49) -/

/-- What the host does with a decoded word, in order: the ports carry the result, the line is printed with the counter's value
before the increment, the counter goes up by 1 (R265, R49, R29). -/
def finishRecord (s : State) (p : Ports) (shown : Text) : State :=
  let s1 := s.withPorts p
  let s2 := s1.print .stdout (listingLine s1.counter p.insn shown)
  s2.withCounter (s2.counter + 1)

/-- The outcome `Recognized(tid, text)` of the word `w`: `text` is what the host prints (R108, R49). -/
def recognized (w : Word) (tid : BitVec 6) (text : Text) (s : State) : Host.Outcome State Fault Refusal :=
  .next (finishRecord s (Ports.drive w tid text) text)

/-- The outcome `Unrecognized` of the word `w`: a normal decode outcome, not an exception (R107, R240). The host prints the
placeholder and goes on with the next record (R52, R244). -/
def unrecognized (w : Word) (s : State) : Host.Outcome State Fault Refusal :=
  .next (finishRecord s (Ports.unrecognized w) placeholder)

/-! ### The end of a run (R247 to R252) -/

/-- Exit with a code: the input stream is released on every exit path (R251). -/
def exitRun (s : State) (code : Nat) : State := s.release.withPhase (.exited code)

/-! ### A record placed from outside, for the host's questions -/

/-- The state with the run in its main loop, the stream held and free of read failures, and the two bytes of the word (its bits
above `nbits` zero) in the stream at the read position. -/
def placeRecord (s : State) (nbits w : Nat) : State :=
  let v : Word := BitVec.ofNat 16 (w % 2 ^ nbits)
  { s with phase := .loop, streamHeld := true, readFailsAt := none,
           stream := Memory.write (Memory.write s.stream s.pos (highByte v)) (s.pos + 1) (lowByte v) }

end Sys2Proof.Machine
end

