-- ==== Sys2Proof/Machine/Alu8.lean ====
section
/-! DEFINITION. Machine/Alu8.lean: the meanings of primary 0x8 (43_alu_8.md): what the block answers for the word and
what the host does with the answer. -/

namespace Sys2Proof.Machine

/-- `LD Vx, Vy`, template id 11 (R170). -/
def execLdReg (x y : RegIdx) (s : State) : Host.Outcome State Fault Refusal :=
  recognized (encode (.ldReg x y)) 11#6 (render ['L', 'D'] [reg x, reg y]) s

/-- `OR Vx, Vy`, template id 12 (R171). -/
def execOrReg (x y : RegIdx) (s : State) : Host.Outcome State Fault Refusal :=
  recognized (encode (.orReg x y)) 12#6 (render ['O', 'R'] [reg x, reg y]) s

/-- `AND Vx, Vy`, template id 13 (R172). -/
def execAndReg (x y : RegIdx) (s : State) : Host.Outcome State Fault Refusal :=
  recognized (encode (.andReg x y)) 13#6 (render ['A', 'N', 'D'] [reg x, reg y]) s

/-- `XOR Vx, Vy`, template id 14 (R173). -/
def execXorReg (x y : RegIdx) (s : State) : Host.Outcome State Fault Refusal :=
  recognized (encode (.xorReg x y)) 14#6 (render ['X', 'O', 'R'] [reg x, reg y]) s

/-- `ADD Vx, Vy`, template id 15 (R174). -/
def execAddReg (x y : RegIdx) (s : State) : Host.Outcome State Fault Refusal :=
  recognized (encode (.addReg x y)) 15#6 (render ['A', 'D', 'D'] [reg x, reg y]) s

/-- `SUB Vx, Vy`, template id 16 (R175). -/
def execSubReg (x y : RegIdx) (s : State) : Host.Outcome State Fault Refusal :=
  recognized (encode (.subReg x y)) 16#6 (render ['S', 'U', 'B'] [reg x, reg y]) s

/-- `SHR Vx, Vy`, template id 17 (R176). -/
def execShrReg (x y : RegIdx) (s : State) : Host.Outcome State Fault Refusal :=
  recognized (encode (.shrReg x y)) 17#6 (render ['S', 'H', 'R'] [reg x, reg y]) s

/-- `SUBN Vx, Vy`, template id 18 (R177). -/
def execSubnReg (x y : RegIdx) (s : State) : Host.Outcome State Fault Refusal :=
  recognized (encode (.subnReg x y)) 18#6 (render ['S', 'U', 'B', 'N'] [reg x, reg y]) s

/-- `SHL Vx, Vy`, template id 19 (R178). -/
def execShlReg (x y : RegIdx) (s : State) : Host.Outcome State Fault Refusal :=
  recognized (encode (.shlReg x y)) 19#6 (render ['S', 'H', 'L'] [reg x, reg y]) s

end Sys2Proof.Machine
end

