-- ==== Sys2Proof/Machine/Primary0To4.lean ====
section
/-! DEFINITION. Machine/Primary0To4.lean: the meanings of primaries 0x0 to 0x4 (41_primary_0_to_4.md): what the block answers for the word and
what the host does with the answer. -/

namespace Sys2Proof.Machine

/-- `CLS`: bits 11 to 8 are neither tested nor rendered (R84), template id 1 (R140). -/
def execCls (x : RegIdx) (s : State) : Host.Outcome State Fault Refusal :=
  recognized (encode (.cls x)) 1#6 (render ['C', 'L', 'S'] []) s

/-- `RET`: bits 11 to 8 are neither tested nor rendered (R84), template id 2 (R141). -/
def execRet (x : RegIdx) (s : State) : Host.Outcome State Fault Refusal :=
  recognized (encode (.ret x)) 2#6 (render ['R', 'E', 'T'] []) s

/-- `SYS addr`, template id 3 (R142). -/
def execSys (nnn : Addr) (s : State) : Host.Outcome State Fault Refusal :=
  recognized (encode (.sys nnn)) 3#6 (render ['S', 'Y', 'S'] [addr nnn]) s

/-- `JP addr`: no target is computed, template id 4 (R143). -/
def execJp (nnn : Addr) (s : State) : Host.Outcome State Fault Refusal :=
  recognized (encode (.jp nnn)) 4#6 (render ['J', 'P'] [addr nnn]) s

/-- `CALL addr`, template id 5 (R144). -/
def execCall (nnn : Addr) (s : State) : Host.Outcome State Fault Refusal :=
  recognized (encode (.call nnn)) 5#6 (render ['C', 'A', 'L', 'L'] [addr nnn]) s

/-- `SE Vx, byte`, template id 6 (R145). -/
def execSeByte (x : RegIdx) (kk : Byte) (s : State) : Host.Outcome State Fault Refusal :=
  recognized (encode (.seByte x kk)) 6#6 (render ['S', 'E'] [reg x, byte kk]) s

/-- `SNE Vx, byte`, template id 7 (R146). -/
def execSneByte (x : RegIdx) (kk : Byte) (s : State) : Host.Outcome State Fault Refusal :=
  recognized (encode (.sneByte x kk)) 7#6 (render ['S', 'N', 'E'] [reg x, byte kk]) s

end Sys2Proof.Machine
end

