-- ==== Sys2Proof/Machine/Primary5To7.lean ====
section
/-! DEFINITION. Machine/Primary5To7.lean: the meanings of primaries 0x5 to 0x7 (42_primary_5_to_7.md): what the block answers for the word and
what the host does with the answer. -/

namespace Sys2Proof.Machine

/-- `SE Vx, Vy`, template id 8 (R160). -/
def execSeReg (x y : RegIdx) (s : State) : Host.Outcome State Fault Refusal :=
  recognized (encode (.seReg x y)) 8#6 (render ['S', 'E'] [reg x, reg y]) s

/-- `LD Vx, byte`, template id 9 (R161). -/
def execLdByte (x : RegIdx) (kk : Byte) (s : State) : Host.Outcome State Fault Refusal :=
  recognized (encode (.ldByte x kk)) 9#6 (render ['L', 'D'] [reg x, byte kk]) s

/-- `ADD Vx, byte`: `kk` is rendered, not computed with, template id 10 (R162). -/
def execAddByte (x : RegIdx) (kk : Byte) (s : State) : Host.Outcome State Fault Refusal :=
  recognized (encode (.addByte x kk)) 10#6 (render ['A', 'D', 'D'] [reg x, byte kk]) s

end Sys2Proof.Machine
end

