-- ==== Sys2Proof/Machine/Primary9ToD.lean ====
section
/-! DEFINITION. Machine/Primary9ToD.lean: the meanings of primaries 0x9 to 0xD (44_primary_9_to_D.md): what the block answers for the word and
what the host does with the answer. -/

namespace Sys2Proof.Machine

/-- `SNE Vx, Vy`, template id 20 (R190). -/
def execSneReg (x y : RegIdx) (s : State) : Host.Outcome State Fault Refusal :=
  recognized (encode (.sneReg x y)) 20#6 (render ['S', 'N', 'E'] [reg x, reg y]) s

/-- `LD I, addr`, template id 21 (R191). -/
def execLdI (nnn : Addr) (s : State) : Host.Outcome State Fault Refusal :=
  recognized (encode (.ldI nnn)) 21#6 (render ['L', 'D'] [litI, addr nnn]) s

/-- `JP V0, addr`: `V0` is literal, template id 22 (R192). -/
def execJpV0 (nnn : Addr) (s : State) : Host.Outcome State Fault Refusal :=
  recognized (encode (.jpV0 nnn)) 22#6 (render ['J', 'P'] [litV0, addr nnn]) s

/-- `RND Vx, byte`: no random value is made, template id 23 (R193). -/
def execRnd (x : RegIdx) (kk : Byte) (s : State) : Host.Outcome State Fault Refusal :=
  recognized (encode (.rnd x kk)) 23#6 (render ['R', 'N', 'D'] [reg x, byte kk]) s

/-- `DRW Vx, Vy, nibble`, template id 24 (R194). -/
def execDrw (x y : RegIdx) (n : Nibble) (s : State) : Host.Outcome State Fault Refusal :=
  recognized (encode (.drw x y n)) 24#6 (render ['D', 'R', 'W'] [reg x, reg y, nib n]) s

end Sys2Proof.Machine
end

