-- ==== Sys2Proof/Machine/PrimaryEF.lean ====
section
/-! DEFINITION. Machine/PrimaryEF.lean: the meanings of primaries 0xE and 0xF (45_primary_E_F.md): what the block answers for the word and
what the host does with the answer. -/

namespace Sys2Proof.Machine

/-- `SKP Vx`, template id 25 (R200). -/
def execSkp (x : RegIdx) (s : State) : Host.Outcome State Fault Refusal :=
  recognized (encode (.skp x)) 25#6 (render ['S', 'K', 'P'] [reg x]) s

/-- `SKNP Vx`, template id 26 (R201). -/
def execSknp (x : RegIdx) (s : State) : Host.Outcome State Fault Refusal :=
  recognized (encode (.sknp x)) 26#6 (render ['S', 'K', 'N', 'P'] [reg x]) s

/-- The `Fx07` form: its whole text is `FX_TEXT(0x07, x)`, open (R219), template id 27 (R210). -/
def execFx07 (x : RegIdx) (s : State) : Host.Outcome State Fault Refusal :=
  recognized (encode (.fx07 x)) 27#6 (Config.fxText 0x07#8 x) s

/-- The `Fx0A` form: its whole text is `FX_TEXT(0x0A, x)`, open (R219), template id 28 (R211). -/
def execFx0A (x : RegIdx) (s : State) : Host.Outcome State Fault Refusal :=
  recognized (encode (.fx0A x)) 28#6 (Config.fxText 0x0A#8 x) s

/-- The `Fx15` form: its whole text is `FX_TEXT(0x15, x)`, open (R219), template id 29 (R212). -/
def execFx15 (x : RegIdx) (s : State) : Host.Outcome State Fault Refusal :=
  recognized (encode (.fx15 x)) 29#6 (Config.fxText 0x15#8 x) s

/-- The `Fx18` form: its whole text is `FX_TEXT(0x18, x)`, open (R219), template id 30 (R213). -/
def execFx18 (x : RegIdx) (s : State) : Host.Outcome State Fault Refusal :=
  recognized (encode (.fx18 x)) 30#6 (Config.fxText 0x18#8 x) s

/-- The `Fx1E` form: its whole text is `FX_TEXT(0x1E, x)`, open (R219), template id 31 (R214). -/
def execFx1E (x : RegIdx) (s : State) : Host.Outcome State Fault Refusal :=
  recognized (encode (.fx1E x)) 31#6 (Config.fxText 0x1E#8 x) s

/-- The `Fx29` form: its whole text is `FX_TEXT(0x29, x)`, open (R219), template id 32 (R215). -/
def execFx29 (x : RegIdx) (s : State) : Host.Outcome State Fault Refusal :=
  recognized (encode (.fx29 x)) 32#6 (Config.fxText 0x29#8 x) s

/-- The `Fx33` form: its whole text is `FX_TEXT(0x33, x)`, open (R219), template id 33 (R216). -/
def execFx33 (x : RegIdx) (s : State) : Host.Outcome State Fault Refusal :=
  recognized (encode (.fx33 x)) 33#6 (Config.fxText 0x33#8 x) s

/-- The `Fx55` form: its whole text is `FX_TEXT(0x55, x)`, open (R219), template id 34 (R217). -/
def execFx55 (x : RegIdx) (s : State) : Host.Outcome State Fault Refusal :=
  recognized (encode (.fx55 x)) 34#6 (Config.fxText 0x55#8 x) s

/-- The `Fx65` form: its whole text is `FX_TEXT(0x65, x)`, open (R219), template id 35 (R218). -/
def execFx65 (x : RegIdx) (s : State) : Host.Outcome State Fault Refusal :=
  recognized (encode (.fx65 x)) 35#6 (Config.fxText 0x65#8 x) s

end Sys2Proof.Machine
end

