-- ==== Sys2Proof/Machine/Driver.lean ====
section
/-! DEFINITION. Machine/Driver.lean: what the host does before its main loop (R263), and how a run is started from outside. -/

namespace Sys2Proof.Machine

/-- Check the arguments (R263 item 1): exactly one positional argument, or the usage message on standard output and exit code 1 with
no listing line (R247). -/
def checkArgs (s : State) : State :=
  match s.argv with
  | [_] => s.withPhase .openFile
  | _ => exitRun (s.print .stdout (Config.usageText s.progName)) 1

/-- The file that a path names, if it can be opened for reading (R248). -/
def findFile : List FileEntry → Text → Option Memory
  | [], _ => none
  | f :: rest, path => if f.path = path then some f.contents else findFile rest path

/-- The path given on the command line: the one positional argument. -/
def State.path (s : State) : Text := s.argv.headD []

/-- Open the file (R263 item 2): the stream is acquired before the main loop (R251), or the message that names the failed path on
`OPEN_ERR_STREAM` and exit code 1 with no listing line (R248). -/
def openFile (s : State) : State :=
  match findFile s.disk s.path with
  | some m => (s.acquire m).withPhase .initCounter
  | none => exitRun (s.print Config.openErrStream (Config.openErrText s.path)) 1

/-- Set the counter to ENTRY (R263 item 3, R261) and enter the main loop (R49). -/
def initCounter (s : State) : State := (s.withCounter s.entry).withPhase .loop

/-- A run of the command-line program: its name, its arguments and the files there are (R247, R248, R261). -/
def State.commandLine (progName : Text) (argv : List Text) (disk : List FileEntry) : State :=
  { State.reset with progName := progName, argv := argv, disk := disk }

/-- A run of the Driver contract: "given a readable byte stream and an entry-point address" (R261). At this start
of a run the stream is open at position 0, nothing is printed, and the counter already holds ENTRY, as R261's table has it; R263 item 3,
the next step, sets it to the same value (assumption log 6). -/
def State.driverContract (bytes : List Byte) (entry : Nat) : State :=
  { (State.reset.acquire (Memory.ofBytes bytes)).withPhase .initCounter with entry := entry, counter := entry }

end Sys2Proof.Machine
end

