-- ==== Sys2Proof/Machine/Step.lean ====
section
/-! DEFINITION. Machine/Step.lean: one step of the listing machine. -/

namespace Sys2Proof.Machine

/-- One record of the main loop (R49): read, decode, print, count (R265). -/
def loopStep (s : State) : Host.Outcome State Fault Refusal :=
  match readRecord s with
  | none => .next (exitRun s 0)
  | some (w, s1) =>
    match decode w with
    | .ok i => exec i s1
    | .error _ => unrecognized w s1

/-- One step: an action of R263 before the loop, or one record of the loop. A run that has ended takes no step (R31, R252). -/
def step (s : State) : Host.Outcome State Fault Refusal :=
  match s.phase with
  | .checkArgs => .next (checkArgs s)
  | .openFile => .next (openFile s)
  | .initCounter => .next (initCounter s)
  | .loop => loopStep s
  | .exited _ => .fault .runEnded

/-- The state in which the very next step fetches and runs the word whose table bits are `w`: the run is in its main loop, and the
word's two bytes stand in the stream at the read position (assumption log 3). -/
def State.withFetchWord (s : State) (nbits w : Nat) : State := placeRecord s nbits w

end Sys2Proof.Machine
end

