-- ==== Sys2Proof/Machine/Block.lean ====
section
/-! DEFINITION. Machine/Block.lean: the block on its own, as R105, R106, R108 and R115 write it down: a function of the word, with
`FX_TEXT` as an argument (R219), and the listing that R49 makes of a stream. The machine's step does not use it: that the two agree is
for the statements to say. -/

namespace Sys2Proof.Machine.Block

/-- The position of a byte in a list, from 0; the length of the list when it does not occur (R108's `index`). -/
def index (l : List Byte) (v : Byte) : Nat :=
  match l with
  | [] => 0
  | a :: rest => if a = v then 0 else index rest v + 1

/-- The template id of a word, 0 for Unrecognized: the case analysis of R108. -/
def tidOf (w : Word) : Nat :=
  let op := opField w
  let n := (nField w).toNat
  let kk := kkField w
  if op = 0x0#4 then (if kk = 0xE0#8 then 1 else if kk = 0xEE#8 then 2 else 3)
  else if op = 0x1#4 then 4
  else if op = 0x2#4 then 5
  else if op = 0x3#4 then 6
  else if op = 0x4#4 then 7
  else if op = 0x5#4 then (if n = 0 then 8 else 0)
  else if op = 0x6#4 then 9
  else if op = 0x7#4 then 10
  else if op = 0x8#4 then (if n ≤ 7 then 11 + n else if n = 0xE then 19 else 0)
  else if op = 0x9#4 then (if n = 0 then 20 else 0)
  else if op = 0xA#4 then 21
  else if op = 0xB#4 then 22
  else if op = 0xC#4 then 23
  else if op = 0xD#4 then 24
  else if op = 0xE#4 then (if kk = 0x9E#8 then 25 else if kk = 0xA1#8 then 26 else 0)
  else if Config.fxSel.contains kk then 27 + index Config.fxSel kk
  else 0

/-- `MN(t)`: the mnemonic of template `t` as the template column of R79 writes it (R115). The `Fx` forms have none: their whole text is
`FX_TEXT`. -/
def mnemonic : Nat → Text
  | 1 => ['C', 'L', 'S']
  | 2 => ['R', 'E', 'T']
  | 3 => ['S', 'Y', 'S']
  | 4 => ['J', 'P']
  | 5 => ['C', 'A', 'L', 'L']
  | 6 => ['S', 'E']
  | 7 => ['S', 'N', 'E']
  | 8 => ['S', 'E']
  | 9 => ['L', 'D']
  | 10 => ['A', 'D', 'D']
  | 11 => ['L', 'D']
  | 12 => ['O', 'R']
  | 13 => ['A', 'N', 'D']
  | 14 => ['X', 'O', 'R']
  | 15 => ['A', 'D', 'D']
  | 16 => ['S', 'U', 'B']
  | 17 => ['S', 'H', 'R']
  | 18 => ['S', 'U', 'B', 'N']
  | 19 => ['S', 'H', 'L']
  | 20 => ['S', 'N', 'E']
  | 21 => ['L', 'D']
  | 22 => ['J', 'P']
  | 23 => ['R', 'N', 'D']
  | 24 => ['D', 'R', 'W']
  | 25 => ['S', 'K', 'P']
  | 26 => ['S', 'K', 'N', 'P']
  | _ => []

/-- `ops(t, w)`: the operand strings of template `t`, from the fields that R106 routes to it, in its order. -/
def operands (t : Nat) (w : Word) : List Text :=
  if t = 1 ∨ t = 2 then []
  else if t = 3 ∨ t = 4 ∨ t = 5 then [addr (nnnField w)]
  else if t = 6 ∨ t = 7 ∨ t = 9 ∨ t = 10 ∨ t = 23 then [reg (xField w), byte (kkField w)]
  else if t = 8 ∨ (11 ≤ t ∧ t ≤ 20) then [reg (xField w), reg (yField w)]
  else if t = 21 then [litI, addr (nnnField w)]
  else if t = 22 then [litV0, addr (nnnField w)]
  else if t = 24 then [reg (xField w), reg (yField w), nib (nField w)]
  else if t = 25 ∨ t = 26 then [reg (xField w)]
  else []

/-- `render(t, w)` (R115), with the whole text of an `Fx` form from `FX_TEXT` (R106, R219). -/
def renderTemplate (fx : Byte → RegIdx → Text) (t : Nat) (w : Word) : Text :=
  if 27 ≤ t then fx (kkField w) (xField w) else render (mnemonic t) (operands t w)

/-- `decode(w)` (R108). -/
def decode (fx : Byte → RegIdx → Text) (w : Word) : DecodeResult :=
  if tidOf w = 0 then .unrecognized
  else .recognized (BitVec.ofNat 6 (tidOf w)) (renderTemplate fx (tidOf w) w)

/-- The values of all ports with the word `w` at the input (R100, R102, R107, R108). -/
def ports (fx : Byte → RegIdx → Text) (w : Word) : Ports :=
  match decode fx w with
  | .recognized t s => Ports.drive w t s
  | .unrecognized => Ports.unrecognized w

/-- What the host prints for a result: the rendered text, or the placeholder (R49, R52). -/
def shown : DecodeResult → Text
  | .recognized _ s => s
  | .unrecognized => placeholder

/-- The listing of a stream from a counter value on: one line per complete record, in record order, each with its own word and the
counter's next value, and nothing for an odd trailing byte (R49, R50, R44). -/
def listing (fx : Byte → RegIdx → Text) : Nat → List Byte → Text
  | c, b0 :: b1 :: rest =>
    listingLine c (wordOfBytes b0 b1) (shown (decode fx (wordOfBytes b0 b1))) ++ listing fx (c + 1) rest
  | _, _ => []

/-- The conventional texts of the nine `Fx` forms, which the spec gives as a non-normative default from general knowledge (R219).
PRESUMED, assumption log 4: no definition of the machine uses it, and a claim about it says nothing about the reference program. -/
def fxTextDefault (kk : Byte) (x : RegIdx) : Text :=
  match kk.toNat with
  | 0x07 => ['L', 'D', ' '] ++ reg x ++ [',', ' ', 'D', 'T']
  | 0x0A => ['L', 'D', ' '] ++ reg x ++ [',', ' ', 'K']
  | 0x15 => ['L', 'D', ' ', 'D', 'T', ',', ' '] ++ reg x
  | 0x18 => ['L', 'D', ' ', 'S', 'T', ',', ' '] ++ reg x
  | 0x1E => ['A', 'D', 'D', ' ', 'I', ',', ' '] ++ reg x
  | 0x29 => ['L', 'D', ' ', 'F', ',', ' '] ++ reg x
  | 0x33 => ['L', 'D', ' ', 'B', ',', ' '] ++ reg x
  | 0x55 => ['L', 'D', ' ', '[', 'I', ']', ',', ' '] ++ reg x
  | _    => ['L', 'D', ' '] ++ reg x ++ [',', ' ', '[', 'I', ']']

end Sys2Proof.Machine.Block
end

