-- ==== Sys2Proof/Safety.lean ====
section
/-! DEFINITION. Safety.lean: what a step may end in, and the invariants of the machine, in the terms that the statements use. -/

namespace Sys2Proof.Machine

/-- A step ends safely: in a next state, or stopped because the run has already ended (R240, R252). No step refuses. -/
def State.stepIsSafe (s : State) : Prop :=
  match step s with
  | .next _ => True
  | .fault .runEnded => ∃ code, s.phase = .exited code
  | .refused _ => False

/-- The word `w` decodes to the instruction `i`, and on every state `i` runs to a next state in which the block's input is `w` and its
result is Recognized with this template id and text: what a per-template rule of files 41 to 45 says of a word. -/
def DecodesAs (w : Word) (i : Instr) (tid : BitVec 6) (text : Text) : Prop :=
  decode w = .ok i ∧
    ∀ s : State, ∃ t, exec i s = .next t ∧ t.ports.insn = w ∧ t.ports.result = .recognized tid text

/-- The word `w` is Unrecognized for this reason: no instruction decodes from it, and a step whose record it is answers a next state in
which the block's input is `w` and its result is Unrecognized. -/
def IsUnrecognized (w : Word) (space : UnrecognizedSpace) : Prop :=
  decode w = .error (.unrecognized space) ∧
    ∀ s s1 : State, s.phase = .loop → readRecord s = some (w, s1) →
      ∃ t, step s = .next t ∧ t.ports.insn = w ∧ t.ports.result = .unrecognized

/-- `0` to `9` or uppercase `A` to `F` (R114). -/
def isUpperHex (c : Char) : Bool := (0x30 ≤ c.toNat && c.toNat ≤ 0x39) || (0x41 ≤ c.toNat && c.toNat ≤ 0x46)

/-- A decimal digit. -/
def isDecimal (c : Char) : Bool := 0x30 ≤ c.toNat && c.toNat ≤ 0x39

/-- The value of a digit that `isUpperHex` accepts. -/
def digitValue (c : Char) : Nat := if c.toNat ≤ 0x39 then c.toNat - 0x30 else c.toNat - 0x37

/-- The number that a sequence of digits denotes in a base, most significant digit first. -/
def valueOf (base : Nat) (t : Text) : Nat := t.foldl (fun v c => v * base + digitValue c) 0

/-- Everything of a state but what one record changes: the outputs of the block, the printed text, the counter and the position. What
an instruction's meaning leaves alone is all of this and the position. -/
def State.SameBut (s t : State) : Prop :=
  t.progName = s.progName ∧ t.argv = s.argv ∧ t.disk = s.disk ∧ t.entry = s.entry ∧ t.readFailsAt = s.readFailsAt ∧
    t.phase = s.phase ∧ t.streamHeld = s.streamHeld ∧ t.stderr = s.stderr ∧
    ∀ a, Memory.read t.stream a = Memory.read s.stream a

/-- The bytes of the open stream, in order. -/
def State.streamBytes (s : State) : List Byte := s.stream.map fun c => c.2

/-- The open stream and every file are in the canonical form, and are contiguous sequences of bytes from offset 0 (R41). -/
def State.FilesAreSequences (s : State) : Prop :=
  Memory.wf s.stream = true ∧ Memory.isFile s.stream = true ∧
    ∀ f ∈ s.disk, Memory.wf f.contents = true ∧ Memory.isFile f.contents = true

/-- A record starts at an even offset inside the stream or at its end (R42, R47); before the first read the position is 0 (R261). -/
def State.PositionIsFramed (s : State) : Prop :=
  s.pos % 2 = 0 ∧ s.pos ≤ s.stream.length ∧ (s.phase = .initCounter → s.pos = 0)

/-- In the loop and after it the AddressCounter is ENTRY plus the number of records read: one unit per 2-byte word (R29, R50). -/
def State.CounterLabelsRecord (s : State) : Prop :=
  s.phase = .loop ∨ s.phase = .exited 0 → s.counter = s.entry + s.pos / 2

/-- The input stream is held exactly from its acquisition, before the loop, to the exit (R251, R263). -/
def State.StreamHeldInRun (s : State) : Prop :=
  s.streamHeld = true ↔ s.phase = .initCounter ∨ s.phase = .loop

/-- The only exit codes are 0 and 1 (R247, R248, R250). -/
def State.ExitCodeIsLegal (s : State) : Prop :=
  ∀ code, s.phase = .exited code → code = 0 ∨ code = 1

/-- The block is combinational: its outputs are R108's function of the word at its input, whatever came before (R20, R101). -/
def State.PortsAreCombinational (s : State) : Prop :=
  s.ports = Block.ports Config.fxText s.ports.insn

/-- The structural invariant of the machine. -/
structure State.Inv (s : State) : Prop where
  files   : s.FilesAreSequences
  framed  : s.PositionIsFramed
  counted : s.CounterLabelsRecord
  held    : s.StreamHeldInRun
  code    : s.ExitCodeIsLegal
  ports   : s.PortsAreCombinational

/-- What has been printed: nothing before the loop; in the loop and after exit code 0, the listing of exactly the records read so
far, and nothing on standard error (R50, R261, R247). -/
def State.PrintedIsListing (s : State) : Prop :=
  (s.phase = .checkArgs ∨ s.phase = .openFile ∨ s.phase = .initCounter → s.stdout = [] ∧ s.stderr = []) ∧
  (s.phase = .loop ∨ s.phase = .exited 0 →
    s.stdout = Block.listing Config.fxText s.entry (s.streamBytes.take s.pos) ∧ s.stderr = [])

end Sys2Proof.Machine
end

