-- ==== Sys2Proof/Certificates/Slice0/Obligations.lean ====
section
/-! DEFINITION. Certificates/Slice0/Obligations.lean: the statements for the provers, each with the rules of the spec that it rests on. -/

open Sys2Proof Sys2Proof.Machine

/-- For every x, the word 0xE0 / 0xEE of primary 0x0 decodes to CLS / RET, and on every state its meaning answers a next state whose
result is Recognized(1, "CLS") / Recognized(2, "RET"). The template ids are the labels of the spec's decision D3, which R140 and
R141 use. (stated; R140, R141) -/
def Obligations.ClsAndRetDecodeWhateverX : Prop :=
  ∀ x : RegIdx,
    DecodesAs (0x0#4 ++ x ++ 0xE0#8) (.cls x) 1#6 ['C', 'L', 'S'] ∧
    DecodesAs (0x0#4 ++ x ++ 0xEE#8) (.ret x) 2#6 ['R', 'E', 'T']

/-- For every nnn, 1nnn and 2nnn decode to JP and CALL, and 0nnn to SYS where its low byte is neither 0xE0 nor 0xEE; on every state
the meaning answers a next state whose result is Recognized(t, M ++ " " ++ addr(nnn)) with t = 3, 4, 5 (labels of the spec's
decision D3). No address is refused for being odd. (stated; R142, R143, R144) -/
def Obligations.SysJpCallDecodeToTheirAddress : Prop :=
  ∀ nnn : Addr,
    (nnn.extractLsb' 0 8 ≠ 0xE0#8 → nnn.extractLsb' 0 8 ≠ 0xEE#8 →
      DecodesAs (0x0#4 ++ nnn) (.sys nnn) 3#6 (['S', 'Y', 'S', ' '] ++ addr nnn)) ∧
    DecodesAs (0x1#4 ++ nnn) (.jp nnn) 4#6 (['J', 'P', ' '] ++ addr nnn) ∧
    DecodesAs (0x2#4 ++ nnn) (.call nnn) 5#6 (['C', 'A', 'L', 'L', ' '] ++ addr nnn)

/-- For every x and kk, 3xkk, 4xkk, 6xkk, 7xkk and Cxkk decode to their templates, and on every state the meaning answers a next state
whose result is Recognized(t, M ++ " " ++ reg(x) ++ ", " ++ byte(kk)), t = 6, 7, 9, 10, 23 (labels of the spec's decision D3).
(stated; R145, R146, R161, R162, R193) -/
def Obligations.ByteFormsDecodeToRegisterAndByte : Prop :=
  ∀ (x : RegIdx) (kk : Byte),
    DecodesAs (0x3#4 ++ x ++ kk) (.seByte x kk) 6#6 (['S', 'E', ' '] ++ reg x ++ [',', ' '] ++ byte kk) ∧
    DecodesAs (0x4#4 ++ x ++ kk) (.sneByte x kk) 7#6 (['S', 'N', 'E', ' '] ++ reg x ++ [',', ' '] ++ byte kk) ∧
    DecodesAs (0x6#4 ++ x ++ kk) (.ldByte x kk) 9#6 (['L', 'D', ' '] ++ reg x ++ [',', ' '] ++ byte kk) ∧
    DecodesAs (0x7#4 ++ x ++ kk) (.addByte x kk) 10#6 (['A', 'D', 'D', ' '] ++ reg x ++ [',', ' '] ++ byte kk) ∧
    DecodesAs (0xC#4 ++ x ++ kk) (.rnd x kk) 23#6 (['R', 'N', 'D', ' '] ++ reg x ++ [',', ' '] ++ byte kk)

/-- For every x, y and n: with n = 0 the words 5xyn and 9xyn decode to SE Vx,Vy (8) and SNE Vx,Vy (20) and the meaning answers a next
state with that result and text, the same register twice included; with n != 0 the word is Unrecognized. (stated; R160, R190) -/
def Obligations.SeAndSneRegistersDecodeOnNibbleZero : Prop :=
  ∀ (x y : RegIdx) (n : Nibble),
    DecodesAs (0x5#4 ++ x ++ y ++ 0x0#4) (.seReg x y) 8#6 (['S', 'E', ' '] ++ reg x ++ [',', ' '] ++ reg y) ∧
    DecodesAs (0x9#4 ++ x ++ y ++ 0x0#4) (.sneReg x y) 20#6 (['S', 'N', 'E', ' '] ++ reg x ++ [',', ' '] ++ reg y) ∧
    (n ≠ 0x0#4 → IsUnrecognized (0x5#4 ++ x ++ y ++ n) .op5 ∧ IsUnrecognized (0x9#4 ++ x ++ y ++ n) .op9)

/-- For every x and y, 8xy0 to 8xy7 and 8xyE decode to LD, OR, AND, XOR, ADD, SUB, SHR, SUBN and SHL, and on every state the meaning
answers a next state whose result is Recognized(t, M ++ " " ++ reg(x) ++ ", " ++ reg(y)), t = 11 to 19. Derived: the spec marks
the pairing of nibbles with mnemonics as its own inference (43_alu_8.md: 'derived: positional pairing of the two lists of section
4.1 row 0x8'). (derived; R170, R171, R172, R173, R174, R175, R176, R177, R178, 43_alu_8.md) -/
def Obligations.AluFormsDecodeToBothRegisters : Prop :=
  ∀ x y : RegIdx,
    DecodesAs (0x8#4 ++ x ++ y ++ 0x0#4) (.ldReg x y) 11#6 (['L', 'D', ' '] ++ reg x ++ [',', ' '] ++ reg y) ∧
    DecodesAs (0x8#4 ++ x ++ y ++ 0x1#4) (.orReg x y) 12#6 (['O', 'R', ' '] ++ reg x ++ [',', ' '] ++ reg y) ∧
    DecodesAs (0x8#4 ++ x ++ y ++ 0x2#4) (.andReg x y) 13#6 (['A', 'N', 'D', ' '] ++ reg x ++ [',', ' '] ++ reg y) ∧
    DecodesAs (0x8#4 ++ x ++ y ++ 0x3#4) (.xorReg x y) 14#6 (['X', 'O', 'R', ' '] ++ reg x ++ [',', ' '] ++ reg y) ∧
    DecodesAs (0x8#4 ++ x ++ y ++ 0x4#4) (.addReg x y) 15#6 (['A', 'D', 'D', ' '] ++ reg x ++ [',', ' '] ++ reg y) ∧
    DecodesAs (0x8#4 ++ x ++ y ++ 0x5#4) (.subReg x y) 16#6 (['S', 'U', 'B', ' '] ++ reg x ++ [',', ' '] ++ reg y) ∧
    DecodesAs (0x8#4 ++ x ++ y ++ 0x6#4) (.shrReg x y) 17#6 (['S', 'H', 'R', ' '] ++ reg x ++ [',', ' '] ++ reg y) ∧
    DecodesAs (0x8#4 ++ x ++ y ++ 0x7#4) (.subnReg x y) 18#6 (['S', 'U', 'B', 'N', ' '] ++ reg x ++ [',', ' '] ++ reg y) ∧
    DecodesAs (0x8#4 ++ x ++ y ++ 0xE#4) (.shlReg x y) 19#6 (['S', 'H', 'L', ' '] ++ reg x ++ [',', ' '] ++ reg y)

/-- For every nnn, Annn and Bnnn decode to LD I,addr (21) and JP V0,addr (22), and on every state the meaning answers a next state
whose text names I / V0 whatever bits 11 to 8 are, followed by addr(nnn). (stated; R191, R192) -/
def Obligations.LdIAndJpV0DecodeWithLiteralOperand : Prop :=
  ∀ nnn : Addr,
    DecodesAs (0xA#4 ++ nnn) (.ldI nnn) 21#6 (['L', 'D', ' ', 'I', ',', ' '] ++ addr nnn) ∧
    DecodesAs (0xB#4 ++ nnn) (.jpV0 nnn) 22#6 (['J', 'P', ' ', 'V', '0', ',', ' '] ++ addr nnn)

/-- For every x, y and n, Dxyn decodes to DRW (24), and on every state the meaning answers a next state whose text is "DRW " ++ reg(x)
++ ", " ++ reg(y) ++ ", " ++ nib(n); a nibble of 0 is recognized. (stated; R194) -/
def Obligations.DrwDecodesToTwoRegistersAndNibble : Prop :=
  ∀ (x y : RegIdx) (n : Nibble),
    DecodesAs (0xD#4 ++ x ++ y ++ n) (.drw x y n) 24#6
      (['D', 'R', 'W', ' '] ++ reg x ++ [',', ' '] ++ reg y ++ [',', ' '] ++ nib n)

/-- For every x, Ex9E and ExA1 decode to SKP (25) and SKNP (26), and on every state the meaning answers a next state whose text is the
mnemonic and reg(x). Derived: the spec marks the pairing as its own inference (R200: 'derived: positional pairing of 0x9E / 0xA1
with SKP Vx / SKNP Vx'). (derived; R200, R201) -/
def Obligations.SkpAndSknpDecode : Prop :=
  ∀ x : RegIdx,
    DecodesAs (0xE#4 ++ x ++ 0x9E#8) (.skp x) 25#6 (['S', 'K', 'P', ' '] ++ reg x) ∧
    DecodesAs (0xE#4 ++ x ++ 0xA1#8) (.sknp x) 26#6 (['S', 'K', 'N', 'P', ' '] ++ reg x)

/-- For every x, FxK decodes to its form for the nine selector bytes K, and on every state the meaning answers a next state whose
result is Recognized(t, FX_TEXT(K, x)), t = 27 to 35; the neighbouring bytes that the rules name (06, 08, 0B, 16, 17, 1F, 28, 34,
56, 66) are Unrecognized. FX_TEXT is the open parameter of R219, an opaque constant: the statement holds for every FX_TEXT.
(stated; R210, R211, R212, R213, R214, R215, R216, R217, R218) -/
def Obligations.FxFormsDecodeWithOpenText : Prop :=
  ∀ x : RegIdx,
    DecodesAs (0xF#4 ++ x ++ 0x07#8) (.fx07 x) 27#6 (Config.fxText 0x07#8 x) ∧
    DecodesAs (0xF#4 ++ x ++ 0x0A#8) (.fx0A x) 28#6 (Config.fxText 0x0A#8 x) ∧
    DecodesAs (0xF#4 ++ x ++ 0x15#8) (.fx15 x) 29#6 (Config.fxText 0x15#8 x) ∧
    DecodesAs (0xF#4 ++ x ++ 0x18#8) (.fx18 x) 30#6 (Config.fxText 0x18#8 x) ∧
    DecodesAs (0xF#4 ++ x ++ 0x1E#8) (.fx1E x) 31#6 (Config.fxText 0x1E#8 x) ∧
    DecodesAs (0xF#4 ++ x ++ 0x29#8) (.fx29 x) 32#6 (Config.fxText 0x29#8 x) ∧
    DecodesAs (0xF#4 ++ x ++ 0x33#8) (.fx33 x) 33#6 (Config.fxText 0x33#8 x) ∧
    DecodesAs (0xF#4 ++ x ++ 0x55#8) (.fx55 x) 34#6 (Config.fxText 0x55#8 x) ∧
    DecodesAs (0xF#4 ++ x ++ 0x65#8) (.fx65 x) 35#6 (Config.fxText 0x65#8 x) ∧
    ∀ kk ∈ [0x06#8, 0x08#8, 0x0B#8, 0x16#8, 0x17#8, 0x1F#8, 0x28#8, 0x34#8, 0x56#8, 0x66#8],
      IsUnrecognized (0xF#4 ++ x ++ kk) .opF

/-- For every x, y, n: 8xyn with n in {8, 9, A, B, C, D, F} is Unrecognized, and for every kk outside {9E, A1} so is Exkk: no
instruction decodes from the word, and a step whose record it is answers a next state with the result Unrecognized. Derived: the
counts that R179 and R202 add are in RecognizedCountsPerPrimary. (derived; R179, R202) -/
def Obligations.OtherSelectorsOf8AndEAreUnrecognized : Prop :=
  ∀ (x y : RegIdx) (n : Nibble) (kk : Byte),
    (n ∈ [0x8#4, 0x9#4, 0xA#4, 0xB#4, 0xC#4, 0xD#4, 0xF#4] → IsUnrecognized (0x8#4 ++ x ++ y ++ n) .op8) ∧
    (kk ∉ [0x9E#8, 0xA1#8] → IsUnrecognized (0xE#4 ++ x ++ kk) .opE)

/-- For every x and every kk outside {07, 0A, 15, 18, 1E, 29, 33, 55, 65}, Fxkk is Unrecognized: no instruction decodes from it, and a
step whose record it is answers a next state with the result Unrecognized. 0xF000 and 0xFFFF are among those words. Derived: the
count that R220 adds is in RecognizedCountsPerPrimary. (derived; R220) -/
def Obligations.OtherSelectorBytesOfFAreUnrecognized : Prop :=
  ∀ (x : RegIdx) (kk : Byte),
    kk ∉ [0x07#8, 0x0A#8, 0x15#8, 0x18#8, 0x1E#8, 0x29#8, 0x33#8, 0x55#8, 0x65#8] →
      IsUnrecognized (0xF#4 ++ x ++ kk) .opF

/-- For every word and every space, decode gives Unrecognized for that space exactly when the word's primary and selector satisfy the
space's condition in the tables of R82 and R241. The counts in R82's table are in RecognizedCountsPerPrimary. (derived; R82, R241) -/
def Obligations.UnrecognizedWordsAreExactlyTheListedSpaces : Prop :=
  ∀ w : Word,
    (decode w = .error (.unrecognized .op5) ↔ opField w = 0x5#4 ∧ nField w ≠ 0x0#4) ∧
    (decode w = .error (.unrecognized .op8) ↔
      opField w = 0x8#4 ∧ nField w ∈ [0x8#4, 0x9#4, 0xA#4, 0xB#4, 0xC#4, 0xD#4, 0xF#4]) ∧
    (decode w = .error (.unrecognized .op9) ↔ opField w = 0x9#4 ∧ nField w ≠ 0x0#4) ∧
    (decode w = .error (.unrecognized .opE) ↔ opField w = 0xE#4 ∧ kkField w ∉ [0x9E#8, 0xA1#8]) ∧
    (decode w = .error (.unrecognized .opF) ↔
      opField w = 0xF#4 ∧ kkField w ∉ [0x07#8, 0x0A#8, 0x15#8, 0x18#8, 0x1E#8, 0x29#8, 0x33#8, 0x55#8, 0x65#8]) ∧
    decode w ≠ .error .shortRecord

/-- The number of words that decode to an instruction, primary by primary, is 4096 for 0x0 to 0x4, 0x6, 0x7 and 0xA to 0xD, 256 for
0x5 and 0x9, 2304 for 0x8, 32 for 0xE and 144 for 0xF (48048 in all). Derived: R81 is marked as counted from R79. (derived; R81) -/
def Obligations.RecognizedCountsPerPrimary : Prop :=
  (List.range 16).map (fun op => ((List.range 4096).filter fun nnn =>
      (decode (BitVec.ofNat 16 (op * 4096 + nnn))).isOk).length) =
    [4096, 4096, 4096, 4096, 4096, 256, 4096, 4096, 2304, 256, 4096, 4096, 4096, 4096, 32, 144]

/-- For every state in the main loop and every word w that it reads, the step answers a next state in which the block's input is w,
its result is decode(w) as R108's case analysis, templates and operand routing give it (with the machine's FX_TEXT), and valid,
tid and text are that result's. The Instr decoder with its 35 meanings and R108's function of the word are two independent
definitions. Derived: the template ids and the outputs of an Unrecognized word are the spec's decisions D3 and D4. (derived; R105,
R106, R107, R108, R115) -/
def Obligations.StepAnswersTheDecodeFunction : Prop :=
  ∀ (s s1 : State) (w : Word), s.phase = .loop → readRecord s = some (w, s1) →
    ∃ t, step s = .next t ∧ t.ports.insn = w ∧ t.ports.result = Block.decode Config.fxText w ∧
      match Block.decode Config.fxText w with
      | .recognized tid text => t.ports.valid = true ∧ t.ports.tid = tid ∧ t.ports.text = text
      | .unrecognized => t.ports.valid = false ∧ t.ports.tid = 0#6 ∧ t.ports.text = []

/-- For every state in the main loop and every word w that it reads, the step answers a next state whose six field outputs have the
values of w's slices, whether w is Recognized or Unrecognized. Derived: the ungated outputs are the spec's decision D4. (derived;
R102, R107) -/
def Obligations.FieldOutputsAreWiresOfTheInput : Prop :=
  ∀ (s s1 : State) (w : Word), s.phase = .loop → readRecord s = some (w, s1) →
    ∃ t, step s = .next t ∧
      t.ports.fOp.toNat = w.toNat / 4096 ∧ t.ports.fX.toNat = w.toNat / 256 % 16 ∧
      t.ports.fY.toNat = w.toNat / 16 % 16 ∧ t.ports.fN.toNat = w.toNat % 16 ∧
      t.ports.fKk.toNat = w.toNat % 256 ∧ t.ports.fNnn.toNat = w.toNat % 4096

/-- For every word, bit j of op, nnn, kk, x, y and n is bit 12+j, j, j, 8+j, 4+j and j of the word. (stated; R71, R72, R74, R75) -/
def Obligations.FieldsAreTheSlicesOfTheWord : Prop :=
  ∀ (w : Word) (j : Nat),
    (opField w).getLsbD j = (decide (j < 4) && w.getLsbD (12 + j)) ∧
    (nnnField w).getLsbD j = (decide (j < 12) && w.getLsbD j) ∧
    (kkField w).getLsbD j = (decide (j < 8) && w.getLsbD j) ∧
    (xField w).getLsbD j = (decide (j < 4) && w.getLsbD (8 + j)) ∧
    (yField w).getLsbD j = (decide (j < 4) && w.getLsbD (4 + j)) ∧
    (nField w).getLsbD j = (decide (j < 4) && w.getLsbD j)

/-- For every word, nnn = x*256 + y*16 + n, kk = y*16 + n and w = op*4096 + nnn. Derived: the spec marks the identities as following
from R71 to R76. (derived; R77) -/
def Obligations.FieldIdentities : Prop :=
  ∀ w : Word,
    (nnnField w).toNat = (xField w).toNat * 256 + (yField w).toNat * 16 + (nField w).toNat ∧
    (kkField w).toNat = (yField w).toNat * 16 + (nField w).toNat ∧
    w.toNat = (opField w).toNat * 4096 + (nnnField w).toNat

/-- For every word there is exactly one t from 0 to 35 with sel[t] = 1, where sel is defined from the mask and match of the opcode
table's rows: no word matches two rows, and sel[0] is 1 exactly when none matches. Derived: the demultiplexer and its numbering
are the spec's decision D3. (derived; R85, R105) -/
def Obligations.DemultiplexerIsOneHot : Prop :=
  ∀ w : Word, ∃ t, t ≤ 35 ∧ sel w t = true ∧ ∀ u, sel w u = true → u = t

/-- For every state in the main loop and every word w that it reads, the step answers a next state whose tid output t has sel[t] = 1,
and whose valid output is 1 exactly when t is not 0. Derived: decision D3. (derived; R105) -/
def Obligations.TidOutputIsTheSelectedDemuxOutput : Prop :=
  ∀ (s s1 : State) (w : Word), s.phase = .loop → readRecord s = some (w, s1) →
    ∃ t, step s = .next t ∧ sel w t.ports.tid.toNat = true ∧ (t.ports.valid = true ↔ t.ports.tid ≠ 0#6)

/-- For any two states in the main loop that read the same word, whatever else differs (earlier words, counter, position, printed
text, ports), the two steps answer next states with the same values on all ports. (stated; R21) -/
def Obligations.SameWordSamePortsWhateverCameBefore : Prop :=
  ∀ (s s' s1 s1' : State) (w : Word), s.phase = .loop → s'.phase = .loop →
    readRecord s = some (w, s1) → readRecord s' = some (w, s1') →
    ∃ t t', step s = .next t ∧ step s' = .next t' ∧ t.ports = t'.ports

/-- For every instruction and state, the meaning answers a next state whose text output is not empty, holds only printable ASCII
characters and spaces, and neither begins nor ends with a space. For the Fx forms this is what R219 item 2 allows to be assumed of
FX_TEXT. (derived; R116, R219) -/
def Obligations.RenderedTextsAreLegal : Prop :=
  ∀ (i : Instr) (s : State), ∃ t, exec i s = .next t ∧ t.ports.text ≠ [] ∧
    (∀ c ∈ t.ports.text, 0x20 ≤ c.toNat ∧ c.toNat ≤ 0x7E) ∧
    t.ports.text.head? ≠ some ' ' ∧ t.ports.text.getLast? ≠ some ' '

/-- For every instruction and state, the meaning answers a next state whose text output has at most TEXT_MAX characters, and at most
18 where its template id is below 27; SNE VF, 0xFF (255) and RND VF, 0xFF (255) have 18. Derived: R119 is marked as following from
R106 and R110 to R115. (derived; R119) -/
def Obligations.RenderedTextsKeepTheLengthBound : Prop :=
  (∀ (i : Instr) (s : State), ∃ t, exec i s = .next t ∧ t.ports.text.length ≤ Config.textMax ∧
      (t.ports.tid.toNat < 27 → t.ports.text.length ≤ 18)) ∧
    ∀ s : State, (∃ t, exec (.sneByte 0xF#4 0xFF#8) s = .next t ∧ t.ports.text.length = 18) ∧
      (∃ t, exec (.rnd 0xF#4 0xFF#8) s = .next t ∧ t.ports.text.length = 18)

/-- If two instructions with template ids from 3 to 26 give the same text, they are the same instruction: each bit of the word is
tested by the selector or shown by the text, and no two templates share a text. Derived: R84 is marked as following from R79, and
the texts are those of R106 and R110 to R115; CLS and RET are its two exceptions, and the Fx texts are open. (derived; R84, R106,
R110, R111, R112, R113, R114, R115) -/
def Obligations.TextDeterminesTheWord : Prop :=
  ∀ (i j : Instr) (s t u : State), exec i s = .next t → exec j s = .next u →
    3 ≤ t.ports.tid.toNat → t.ports.tid.toNat ≤ 26 → 3 ≤ u.ports.tid.toNat → u.ports.tid.toNat ≤ 26 →
    t.ports.text = u.ports.text → i = j

/-- For every index i, reg(i) is the letter V followed by the i-th of the characters 0 to 9, A to F. (stated; R110) -/
def Obligations.RegisterOperandIsVAndOneUppercaseDigit : Prop :=
  ∀ i : RegIdx, reg i =
    ['V', ['0', '1', '2', '3', '4', '5', '6', '7', '8', '9', 'A', 'B', 'C', 'D', 'E', 'F'].getD i.toNat '?']

/-- For every 12-bit v, addr(v) is 0x followed by exactly 3 uppercase hexadecimal digits that denote v, and for every nibble nib(v) is
0x followed by exactly one. (stated; R112, R113) -/
def Obligations.AddressAndNibbleOperandsReadBack : Prop :=
  (∀ v : Addr, ∃ d, addr v = ['0', 'x'] ++ d ∧ d.length = 3 ∧ (∀ c ∈ d, isUpperHex c = true) ∧ valueOf 16 d = v.toNat) ∧
    ∀ v : Nibble, ∃ d, nib v = ['0', 'x'] ++ d ∧ d.length = 1 ∧ (∀ c ∈ d, isUpperHex c = true) ∧ valueOf 16 d = v.toNat

/-- For every byte v, byte(v) is 0x, exactly 2 uppercase hexadecimal digits that denote v, a space, and in parentheses decimal digits
that denote v with no leading zero (except "0" itself). Derived: the unpadded decimal is the spec's decision D7. (derived; R111) -/
def Obligations.ByteOperandShowsHexAndDecimal : Prop :=
  ∀ v : Byte, ∃ h d, byte v = ['0', 'x'] ++ h ++ [' ', '('] ++ d ++ [')'] ∧
    h.length = 2 ∧ (∀ c ∈ h, isUpperHex c = true) ∧ valueOf 16 h = v.toNat ∧
    d ≠ [] ∧ (∀ c ∈ d, isDecimal c = true) ∧ valueOf 10 d = v.toNat ∧ (d.head? = some '0' → d = ['0'])

/-- For every counter value c, hexA(c) consists of at least 3 uppercase hexadecimal digits that denote c, and has a leading zero only
where 3 digits are needed. Derived: what is printed above 0xFFF is the spec's decision D8. (derived; R51, R28) -/
def Obligations.AddressColumnIsNeverTruncated : Prop :=
  ∀ c : Nat, 3 ≤ (hexA c).length ∧ (∀ ch ∈ hexA c, isUpperHex ch = true) ∧ valueOf 16 (hexA c) = c ∧
    (3 < (hexA c).length → (hexA c).head? ≠ some '0')

/-- For every word, WORD4 is exactly 4 uppercase hexadecimal digits that denote the word. Derived: this is one part of R51's layout.
(derived; R51) -/
def Obligations.WordColumnIsFourDigits : Prop :=
  ∀ w : Word, (word4 w).length = 4 ∧ (∀ c ∈ word4 w, isUpperHex c = true) ∧ valueOf 16 (word4 w) = w.toNat

/-- For every state: where the read does not fail and bytes b0 and b1 stand at the position and after it, ReadRecord gives the word
b0*256 + b1 and changes the position alone, by 2; where the read fails or fewer than 2 bytes remain, it gives no word. (stated;
R43) -/
def Obligations.RecordIsTwoBytesBigEndian : Prop :=
  ∀ s : State,
    (∀ b0 b1, s.readFails = false → Memory.read s.stream s.pos = some b0 → Memory.read s.stream (s.pos + 1) = some b1 →
      ∃ w : Word, readRecord s = some (w, { s with pos := s.pos + 2 }) ∧ w.toNat = b0.toNat * 256 + b1.toNat) ∧
    (s.readFails = true ∨ Memory.read s.stream s.pos = none ∨ Memory.read s.stream (s.pos + 1) = none →
      readRecord s = none)

/-- In the main loop, where two readable bytes stand at the position and their word decodes to an instruction i, the step is exec i on
the state with the position moved past the record; where the word is Unrecognized, the step is the Unrecognized outcome of that
word on that state. Derived: how the read, exec and the Unrecognized outcome are named is the model's. (derived; R49, R265) -/
def Obligations.StepRunsTheDecodedInstruction : Prop :=
  ∀ (s : State) (b0 b1 : Byte), s.phase = .loop → s.readFails = false →
    Memory.read s.stream s.pos = some b0 → Memory.read s.stream (s.pos + 1) = some b1 →
    (∀ i, decode (b0 ++ b1) = .ok i → step s = exec i { s with pos := s.pos + 2 }) ∧
    (∀ e, decode (b0 ++ b1) = .error e → step s = unrecognized (b0 ++ b1) { s with pos := s.pos + 2 })

/-- For every state, every table word w of nbits bits and instruction i: if decodeTableWord reads i from w, then the step from
withFetchWord is exec i on that state with the position moved past the record. Derived: the two functions are the model's
interface to the host. (derived; R43, R49) -/
def Obligations.PlacedTableWordIsRunNext : Prop :=
  ∀ (s : State) (nbits w : Nat) (i : Instr), decodeTableWord nbits w = some i →
    step (s.withFetchWord nbits w) = exec i { s.withFetchWord nbits w with pos := s.pos + 2 }

/-- For every state in the main loop and every word w that it reads, the step answers a next state that is still in the loop, whose
position is 2 further, whose counter is 1 higher, and whose standard output is the old one followed by exactly one line: 0x, the
counter before the increment, a colon, a tab, 0x, the word, a tab, the shown text, a newline. (stated; R265) -/
def Obligations.EachRecordPrintsOneLineAndCountsOne : Prop :=
  ∀ (s s1 : State) (w : Word), s.phase = .loop → readRecord s = some (w, s1) →
    ∃ t, step s = .next t ∧ t.phase = .loop ∧ t.pos = s.pos + 2 ∧ t.counter = s.counter + 1 ∧
      t.stdout = s.stdout ++ (['0', 'x'] ++ hexA s.counter ++ [':', '\t', '0', 'x'] ++ word4 w ++ ['\t'] ++
        (match Block.decode Config.fxText w with
         | .recognized _ text => text
         | .unrecognized => ['?', '?', '?']) ++ ['\n'])

/-- For every state in the main loop that reads a word from which no instruction decodes, the step answers a next state still in the
loop, at the next record, with one more line whose text is ???. (stated; R52) -/
def Obligations.UnrecognizedWordPrintsPlaceholderAndRunGoesOn : Prop :=
  ∀ (s s1 : State) (w : Word) (e : Reject), s.phase = .loop → readRecord s = some (w, s1) → decode w = .error e →
    ∃ t, step s = .next t ∧ t.phase = .loop ∧ t.pos = s.pos + 2 ∧ t.counter = s.counter + 1 ∧
      t.stdout = s.stdout ++ listingLine s.counter w ['?', '?', '?']

/-- In the main loop, where no byte stands at the position or none after it, the step answers the same state but for the stream, which
is released, and the run, which has ended with exit code 0; nothing is printed. (stated; R44) -/
def Obligations.EndOfStreamExitsZero : Prop :=
  ∀ s : State, s.phase = .loop →
    Memory.read s.stream s.pos = none ∨ Memory.read s.stream (s.pos + 1) = none →
    step s = .next { s with streamHeld := false, phase := .exited 0 }

/-- In the main loop, where the medium fails at an offset of the record to be read, the step answers the same state but for the
stream, which is released, and the run, which has ended with exit code 0; nothing is printed. Derived: the spec's decision D18.
(derived; R45, R249) -/
def Obligations.ReadFailureEndsTheRunAsEndOfStream : Prop :=
  ∀ (s : State) (f : Nat), s.phase = .loop → s.readFailsAt = some f → f < s.pos + 2 →
    step s = .next { s with streamHeld := false, phase := .exited 0 }

/-- At the argument check: with an argument count other than 1 the step answers the same state but for standard output, which has
USAGE_TEXT(progname) added and no listing line, and the run, which has ended with exit code 1, the stream not held; with exactly
one it answers the same state, about to open the file. Derived: the order of the actions is R263's, and that the check is a step
of its own is the model's choice (log 6). USAGE_TEXT is open: the statement holds for every text. (derived; R247, R251, R263) -/
def Obligations.WrongArgumentCountIsAUsageError : Prop :=
  ∀ s : State, s.phase = .checkArgs →
    (s.argv.length ≠ 1 → step s = .next { s with stdout := s.stdout ++ Config.usageText s.progName,
                                                 streamHeld := false, phase := .exited 1 }) ∧
    (s.argv.length = 1 → step s = .next { s with phase := .openFile })

/-- When the file is to be opened and no file of that path can be, the step answers the same state but for the one output stream
OPEN_ERR_STREAM, which has OPEN_ERR_TEXT(path) added, and the run, which has ended with exit code 1, the stream not held. Both
parameters are open: the statement holds for every text and either stream. (stated; R248) -/
def Obligations.UnopenableFileExitsOne : Prop :=
  ∀ (s : State) (path : Text), s.phase = .openFile → s.argv = [path] → findFile s.disk path = none →
    step s = .next (match Config.openErrStream with
      | .stdout => { s with stdout := s.stdout ++ Config.openErrText path, streamHeld := false, phase := .exited 1 }
      | .stderr => { s with stderr := s.stderr ++ Config.openErrText path, streamHeld := false, phase := .exited 1 })

/-- When the file is to be opened and the path names one that can be, the step answers the same state but for the stream, which is
held and has that file's bytes at position 0; the step after it sets the counter to ENTRY and enters the loop, and changes nothing
else. Derived: the split into these two steps is the model's (log 6). (derived; R251, R261, R263) -/
def Obligations.OpenedFileIsAcquiredAndCounterSetToEntry : Prop :=
  ∀ s : State,
    (∀ path m, s.phase = .openFile → s.argv = [path] → findFile s.disk path = some m →
      step s = .next { s with stream := m, pos := 0, streamHeld := true, phase := .initCounter }) ∧
    (s.phase = .initCounter → step s = .next { s with counter := s.entry, phase := .loop })

/-- For every program name, path and set of files in which the path names one: three steps after the start the run is in its main
loop, the stream held and equal to that file, at offset 0, the counter 0x200, nothing printed. Derived: 0x200 for the command line
is the spec's decision D9, the three steps are the model's (log 6). (derived; R261, R263, R251) -/
def Obligations.CommandLineRunReachesTheLoopAtEntry200 : Prop :=
  ∀ (prog path : Text) (disk : List FileEntry) (m : Memory), findFile disk path = some m →
    ∃ t, core.run 3 (State.commandLine prog [path] disk) = .next t ∧ t.phase = .loop ∧ t.streamHeld = true ∧
      t.stream = m ∧ t.pos = 0 ∧ t.counter = 0x200 ∧ t.stdout = [] ∧ t.stderr = []

/-- In every state whose run has ended, the step stops with the fault runEnded. Derived: that an ended process has no next state is
the model's reading of R31 and R252 (log 7). (derived; R31, R252) -/
def Obligations.EndedRunTakesNoStep : Prop :=
  ∀ (s : State) (code : Nat), s.phase = .exited code → step s = .fault .runEnded

/-- For every state whose run has not ended, whatever the word read, the step answers a next state; no instruction's meaning and no
Unrecognized word faults or is refused. Derived: R240 says so of the block, and how a run ends is the model's (log 7). (derived;
R240, R242, R252) -/
def Obligations.NoStepFaultsOrRefusesBeforeTheEnd : Prop :=
  (∀ s : State, (∀ code, s.phase ≠ .exited code) → ∃ t, step s = .next t) ∧
    (∀ s : State, s.stepIsSafe) ∧
    (∀ (i : Instr) (s : State), ∃ t, exec i s = .next t) ∧
    ∀ (w : Word) (s : State), ∃ t, unrecognized w s = .next t

/-- For all 35 instructions, on every state: the next state has the same inputs (program name, arguments, files, ENTRY, read failure),
the same run phase, stream and hold on it, every byte of the stream reading as before, the same position and standard error;
standard output is the old one with one line added, the counter is 1 higher, and beyond that only the ports change. No flag and no
register of the decoded program exists to change. (derived; R20, R26, R27, R40, R55) -/
def Obligations.InstructionFrame : Prop :=
  ∀ (i : Instr) (s t : State), exec i s = .next t →
    s.SameBut t ∧ t.pos = s.pos ∧ t.counter = s.counter + 1 ∧
      t.stdout = s.stdout ++ listingLine s.counter (encode i) t.ports.text ∧ t.ports.insn = encode i

/-- For every step that answers a next state: the inputs and every file are unchanged; every byte of the open stream reads as before,
except that opening the file brings in the file's bytes; outside the opening, the position is unchanged or 2 higher; what has been
printed stays and is only added to. (derived; R41, R42, R46, R55) -/
def Obligations.StepNeverChangesInputsNorTheOpenStream : Prop :=
  ∀ s t : State, step s = .next t →
    t.progName = s.progName ∧ t.argv = s.argv ∧ t.disk = s.disk ∧ t.entry = s.entry ∧ t.readFailsAt = s.readFailsAt ∧
      (s.phase ≠ .openFile → (∀ a, Memory.read t.stream a = Memory.read s.stream a) ∧ (t.pos = s.pos ∨ t.pos = s.pos + 2)) ∧
      s.stdout <+: t.stdout ∧ s.stderr <+: t.stderr

/-- State.reset satisfies Inv and PrintedIsListing: canonical memory, framed position, stream not held, ports that are R108's function
of the input word (0x0000 at reset, log 2), nothing printed, position 0, counter 0x200. Derived: 0x200 as ENTRY at reset is the
spec's decision D9, a design choice (log 11). (derived; R261, R260) -/
def Obligations.ResetSatisfiesTheInvariants : Prop :=
  State.reset.Inv ∧ State.reset.PrintedIsListing ∧ State.reset.counter = 0x200 ∧ State.reset.pos = 0 ∧ State.reset.stdout = []

/-- For every byte sequence and ENTRY the Driver contract's start state, and for every name, arguments and files that are contiguous
byte sequences the command line's start state, satisfy Inv and PrintedIsListing; in both the counter is ENTRY and the position 0,
as R261's table has them at the start of a run (0x200 for the command line by decision D9, log 11). (derived; R261, R41) -/
def Obligations.StartedRunsSatisfyTheInvariant : Prop :=
  (∀ (bytes : List Byte) (entry : Nat),
      (State.driverContract bytes entry).Inv ∧ (State.driverContract bytes entry).PrintedIsListing ∧
        (State.driverContract bytes entry).counter = entry ∧ (State.driverContract bytes entry).pos = 0) ∧
    ∀ (prog : Text) (argv : List Text) (disk : List FileEntry),
      (∀ f ∈ disk, Memory.wf f.contents = true ∧ Memory.isFile f.contents = true) →
      (State.commandLine prog argv disk).Inv ∧ (State.commandLine prog argv disk).PrintedIsListing ∧
        (State.commandLine prog argv disk).counter = 0x200 ∧ (State.commandLine prog argv disk).pos = 0

/-- From every state that satisfies Inv, a step that answers a next state gives one that satisfies Inv: the stream and files in
canonical form and contiguous; the position even and inside the stream; in the loop and after exit code 0 the counter equal to
ENTRY plus the records read; the stream held exactly from its acquisition to the exit; exit codes 0 and 1 only; and the ports
equal to R108's function of the input word alone. (derived; R20, R29, R41, R42, R47, R50, R101, R250, R251) -/
def Obligations.StepKeepsTheInvariant : Prop :=
  ∀ s t : State, s.Inv → step s = .next t → t.Inv

/-- From every state that satisfies Inv and PrintedIsListing, a step that answers a next state gives one that satisfies
PrintedIsListing: nothing is printed before the loop, and in the loop and after exit code 0 standard output is exactly one line
per record read, in record order, numbered from ENTRY. Derived: R50 is marked as following from R49. (derived; R50, R49, R52) -/
def Obligations.StepKeepsPrintedEqualToListing : Prop :=
  ∀ s t : State, s.Inv → s.PrintedIsListing → step s = .next t → t.PrintedIsListing

/-- For every byte sequence and every ENTRY, the run of the Driver contract ends after one step for the counter, one for each complete
record and one for the end of the stream: exit code 0, the stream released, the final counter ENTRY plus the number of records,
standard error empty, and standard output the listing that R49 makes with R108's decode function. Derived: that setting the
counter is a step of its own is the model's choice (log 6). (derived; R49, R50, R44, R250) -/
def Obligations.DriverContractPrintsTheListing : Prop :=
  ∀ (bytes : List Byte) (entry : Nat),
    ∃ t, core.run (bytes.length / 2 + 2) (State.driverContract bytes entry) = .next t ∧
      t.phase = .exited 0 ∧ t.streamHeld = false ∧ t.counter = entry + bytes.length / 2 ∧ t.stderr = [] ∧
      t.stdout = Block.listing Config.fxText entry bytes

/-- For every program name, path and files, if the path names a file with these bytes, the run of the command line ends after 3 steps
before the loop, one for each complete record and one for the end of the stream: exit code 0, standard error empty, standard
output the file's listing numbered from 0x200. Derived: 0x200 is the spec's decision D9 (log 11), the three steps before the loop
are the model's choice (log 6). (derived; R49, R250, R261, R263) -/
def Obligations.CommandLinePrintsTheListingFrom200 : Prop :=
  ∀ (prog path : Text) (disk : List FileEntry) (bytes : List Byte),
    findFile disk path = some (Memory.ofBytes bytes) →
    ∃ t, core.run (bytes.length / 2 + 4) (State.commandLine prog [path] disk) = .next t ∧
      t.phase = .exited 0 ∧ t.streamHeld = false ∧ t.counter = 0x200 + bytes.length / 2 ∧ t.stderr = [] ∧
      t.stdout = Block.listing Config.fxText 0x200 bytes

/-- For every byte sequence, ENTRY and offset f within it, the run of the Driver contract with a medium that fails at f ends with exit
code 0 and has printed exactly the listing of the first f bytes: the lines already printed stay. Derived: the spec's decision D18;
the form of the failure is the model's choice (log 8), and the step that sets the counter too (log 6). (derived; R45, R49) -/
def Obligations.ReadFailureListsTheReadablePrefix : Prop :=
  ∀ (bytes : List Byte) (entry f : Nat), f ≤ bytes.length →
    ∃ t, core.run (f / 2 + 2) { State.driverContract bytes entry with readFailsAt := some f } = .next t ∧
      t.phase = .exited 0 ∧ t.stderr = [] ∧ t.stdout = Block.listing Config.fxText entry (bytes.take f)

/-- For every well-formed instruction of all 35 rows, with every operand at every value: decode(encode(i)) = i, and on bytes the same
with any bytes following. (derived; R70, R78, R79, R85) -/
def Obligations.DecodeOfEncodeIsTheInstruction : Prop :=
  ∀ (i : Instr) (rest : List Byte), i.wellFormed = true →
    decode (encode i) = .ok i ∧ decodeBytes (encodeBytes i ++ rest) = .ok (i, rest)

/-- For every word w and instruction i, if w decodes to i then i is well formed and its word is w: no bit of a recognized word is
lost, the untested bits of CLS and RET included. (derived; R70, R79, R84, R85) -/
def Obligations.EncodeOfDecodeIsTheWord : Prop :=
  ∀ (w : Word) (i : Instr), decode w = .ok i → i.wellFormed = true ∧ encode i = w

/-- One word per file of instruction rules, taken from the spec's worked examples, decodes to the instruction it stands for, and two
boundary words are Unrecognized. (derived; R79, 95_test_vectors.md) -/
def Obligations.WordsWrittenOutFromTheTableDecode : Prop :=
  decode 0x1234#16 = .ok (.jp 0x234#12) ∧ decode 0x6A05#16 = .ok (.ldByte 0xA#4 0x05#8) ∧
    decode 0x8E04#16 = .ok (.addReg 0xE#4 0x0#4) ∧ decode 0xD12F#16 = .ok (.drw 0x1#4 0x2#4 0xF#4) ∧
    decode 0xF833#16 = .ok (.fx33 0x8#4) ∧ decode 0x5001#16 = .error (.unrecognized .op5) ∧
    decode 0xFFFF#16 = .error (.unrecognized .opF)
end

