-- ==== Sys2Proof/Laws/Decode.lean ====
section
/-! SUPPORT. Laws/Decode.lean: the fields of a word that is written as its fields, and the bytes of a word. -/

namespace Sys2Proof

/-! ### A primary opcode and an address -/
section
variable (p : BitVec 4) (a : Addr)

@[simp] theorem opField_addr : opField (p ++ a) = p := by
  unfold opField; ext i hi; simp only [BitVec.getElem_extractLsb', BitVec.getLsbD_append]
  simp [BitVec.getLsbD_eq_getElem hi]
@[simp] theorem nnnField_addr : nnnField (p ++ a) = a := by
  unfold nnnField; ext i hi; simp only [BitVec.getElem_extractLsb', BitVec.getLsbD_append]; simp [hi]
@[simp] theorem kkField_addr : kkField (p ++ a) = Addr.lowByte a := by
  unfold kkField Addr.lowByte
  ext i hi
  simp only [BitVec.getElem_extractLsb', BitVec.getLsbD_append]
  simp [show i < 12 by omega]

end

/-! ### A primary opcode, a register index and a byte -/
section
variable (p : BitVec 4) (x : RegIdx) (k : Byte)

@[simp] theorem opField_regByte : opField (p ++ x ++ k) = p := by
  unfold opField; ext i hi; simp only [BitVec.getElem_extractLsb', BitVec.getLsbD_append]
  simp [show ¬ (12 + i < 8) by omega, show ¬ (12 + i - 8 < 4) by omega, show 12 + i - 8 - 4 = i by omega,
    BitVec.getLsbD_eq_getElem hi]
@[simp] theorem xField_regByte : xField (p ++ x ++ k) = x := by
  unfold xField; ext i hi; simp only [BitVec.getElem_extractLsb', BitVec.getLsbD_append]; simp [hi]
@[simp] theorem kkField_regByte : kkField (p ++ x ++ k) = k := by
  unfold kkField; ext i hi; simp only [BitVec.getElem_extractLsb', BitVec.getLsbD_append]; simp [hi]

end

/-! ### A primary opcode, two register indices and a nibble -/
section
variable (p : BitVec 4) (x y : RegIdx) (n : Nibble)

@[simp] theorem opField_regReg : opField (p ++ x ++ y ++ n) = p := by
  unfold opField; ext i hi; simp only [BitVec.getElem_extractLsb', BitVec.getLsbD_append]
  simp [show ¬ (12 + i < 4) by omega, show ¬ (12 + i - 4 < 4) by omega, show ¬ (12 + i - 4 - 4 < 4) by omega,
    show 12 + i - 4 - 4 - 4 = i by omega, BitVec.getLsbD_eq_getElem hi]
@[simp] theorem xField_regReg : xField (p ++ x ++ y ++ n) = x := by
  unfold xField; ext i hi; simp only [BitVec.getElem_extractLsb', BitVec.getLsbD_append]
  simp [show ¬ (8 + i < 4) by omega, show ¬ (8 + i - 4 < 4) by omega, show 8 + i - 4 - 4 = i by omega, hi]
@[simp] theorem yField_regReg : yField (p ++ x ++ y ++ n) = y := by
  unfold yField; ext i hi; simp only [BitVec.getElem_extractLsb', BitVec.getLsbD_append]; simp [hi]
@[simp] theorem nField_regReg : nField (p ++ x ++ y ++ n) = n := by
  unfold nField; ext i hi; simp only [BitVec.getElem_extractLsb', BitVec.getLsbD_append]; simp [hi]

end

/-! ### Every word is its fields (R77) -/

/-- A word is its primary opcode and its address field. -/
theorem word_eq_addr (w : Word) : w = opField w ++ nnnField w := by
  unfold opField nnnField
  refine BitVec.eq_of_getLsbD_eq fun i hi => ?_
  simp only [BitVec.getLsbD_append, BitVec.getLsbD_extractLsb']
  by_cases h : i < 12
  · simp [h]
  · simp [h, show i - 12 < 4 by omega, show 12 + (i - 12) = i by omega]

/-- A word is its primary opcode, its first register index and its byte field. -/
theorem word_eq_regByte (w : Word) : w = opField w ++ xField w ++ kkField w := by
  unfold opField xField kkField
  refine BitVec.eq_of_getLsbD_eq fun i hi => ?_
  simp only [BitVec.getLsbD_append, BitVec.getLsbD_extractLsb']
  by_cases h : i < 8
  · simp [h]
  · by_cases h' : i - 8 < 4
    · simp [h, h', show 8 + (i - 8) = i by omega]
    · simp [h, h', show i - 8 - 4 < 4 by omega, show 12 + (i - 8 - 4) = i by omega]

/-- A word is its primary opcode, its two register indices and its low nibble. -/
theorem word_eq_regReg (w : Word) : w = opField w ++ xField w ++ yField w ++ nField w := by
  unfold opField xField yField nField
  refine BitVec.eq_of_getLsbD_eq fun i hi => ?_
  simp only [BitVec.getLsbD_append, BitVec.getLsbD_extractLsb']
  by_cases h : i < 4
  · simp [h]
  · by_cases h' : i - 4 < 4
    · simp [h, h', show 4 + (i - 4) = i by omega]
    · by_cases h'' : i - 4 - 4 < 4
      · simp [h, h', h'', show 8 + (i - 4 - 4) = i by omega]
      · simp [h, h', h'', show i - 4 - 4 - 4 < 4 by omega, show 12 + (i - 4 - 4 - 4) = i by omega]

/-- A record's two bytes, high byte first, are its word (R43). -/
@[simp] theorem wordOfBytes_high_low (w : Word) : wordOfBytes (highByte w) (lowByte w) = w := by
  unfold wordOfBytes highByte lowByte
  refine BitVec.eq_of_getLsbD_eq fun i hi => ?_
  simp only [BitVec.getLsbD_append, BitVec.getLsbD_extractLsb']
  by_cases h : i < 8
  · simp [h]
  · simp [h, show i - 8 < 8 by omega, show 8 + (i - 8) = i by omega]

end Sys2Proof
end

