-- ==== Sys2Proof/Laws/Exec.lean ====
section
/-! SUPPORT. Laws/Exec.lean: what exec does, once for all instructions. -/

namespace Sys2Proof

/-- The template id of an instruction's row (R79). -/
def Instr.templateId : Instr → Nat
  | .cls _ => 1
  | .ret _ => 2
  | .sys _ => 3
  | .jp _ => 4
  | .call _ => 5
  | .seByte _ _ => 6
  | .sneByte _ _ => 7
  | .seReg _ _ => 8
  | .ldByte _ _ => 9
  | .addByte _ _ => 10
  | .ldReg _ _ => 11
  | .orReg _ _ => 12
  | .andReg _ _ => 13
  | .xorReg _ _ => 14
  | .addReg _ _ => 15
  | .subReg _ _ => 16
  | .shrReg _ _ => 17
  | .subnReg _ _ => 18
  | .shlReg _ _ => 19
  | .sneReg _ _ => 20
  | .ldI _ => 21
  | .jpV0 _ => 22
  | .rnd _ _ => 23
  | .drw _ _ _ => 24
  | .skp _ => 25
  | .sknp _ => 26
  | .fx07 _ => 27
  | .fx0A _ => 28
  | .fx15 _ => 29
  | .fx18 _ => 30
  | .fx1E _ => 31
  | .fx29 _ => 32
  | .fx33 _ => 33
  | .fx55 _ => 34
  | .fx65 _ => 35

namespace Machine

/-- The text of an instruction (R106, R115, R219). -/
def textOf : Instr → Text
  | .cls _ => render ['C', 'L', 'S'] []
  | .ret _ => render ['R', 'E', 'T'] []
  | .sys nnn => render ['S', 'Y', 'S'] [addr nnn]
  | .jp nnn => render ['J', 'P'] [addr nnn]
  | .call nnn => render ['C', 'A', 'L', 'L'] [addr nnn]
  | .seByte x kk => render ['S', 'E'] [reg x, byte kk]
  | .sneByte x kk => render ['S', 'N', 'E'] [reg x, byte kk]
  | .seReg x y => render ['S', 'E'] [reg x, reg y]
  | .ldByte x kk => render ['L', 'D'] [reg x, byte kk]
  | .addByte x kk => render ['A', 'D', 'D'] [reg x, byte kk]
  | .ldReg x y => render ['L', 'D'] [reg x, reg y]
  | .orReg x y => render ['O', 'R'] [reg x, reg y]
  | .andReg x y => render ['A', 'N', 'D'] [reg x, reg y]
  | .xorReg x y => render ['X', 'O', 'R'] [reg x, reg y]
  | .addReg x y => render ['A', 'D', 'D'] [reg x, reg y]
  | .subReg x y => render ['S', 'U', 'B'] [reg x, reg y]
  | .shrReg x y => render ['S', 'H', 'R'] [reg x, reg y]
  | .subnReg x y => render ['S', 'U', 'B', 'N'] [reg x, reg y]
  | .shlReg x y => render ['S', 'H', 'L'] [reg x, reg y]
  | .sneReg x y => render ['S', 'N', 'E'] [reg x, reg y]
  | .ldI nnn => render ['L', 'D'] [litI, addr nnn]
  | .jpV0 nnn => render ['J', 'P'] [litV0, addr nnn]
  | .rnd x kk => render ['R', 'N', 'D'] [reg x, byte kk]
  | .drw x y n => render ['D', 'R', 'W'] [reg x, reg y, nib n]
  | .skp x => render ['S', 'K', 'P'] [reg x]
  | .sknp x => render ['S', 'K', 'N', 'P'] [reg x]
  | .fx07 x => Config.fxText 0x07#8 x
  | .fx0A x => Config.fxText 0x0A#8 x
  | .fx15 x => Config.fxText 0x15#8 x
  | .fx18 x => Config.fxText 0x18#8 x
  | .fx1E x => Config.fxText 0x1E#8 x
  | .fx29 x => Config.fxText 0x29#8 x
  | .fx33 x => Config.fxText 0x33#8 x
  | .fx55 x => Config.fxText 0x55#8 x
  | .fx65 x => Config.fxText 0x65#8 x

/-- Every instruction runs, on every state, and its outcome is Recognized with its own word, template id and text. -/
theorem exec_eq (i : Instr) (s : State) :
    exec i s = recognized (encode i) (BitVec.ofNat 6 i.templateId) (textOf i) s := by
  cases i <;> rfl

theorem templateId_bounds (i : Instr) : 1 ≤ i.templateId ∧ i.templateId ≤ 35 := by
  cases i <;> simp [Instr.templateId]

theorem templateId_ne_zero (i : Instr) : BitVec.ofNat 6 i.templateId ≠ 0#6 := by
  cases i <;> simp [Instr.templateId]

end Machine

end Sys2Proof
end

