-- ==== Sys2Proof/Laws/Memory.lean ====
section
/-! SUPPORT. Laws/Memory.lean: reading, writing and the canonical form of a stream's bytes. -/

namespace Sys2Proof.Machine.Memory

/-- In a canonical list every later offset is above the first one. -/
theorem wf_head_lt {c : Host.Cell} {rest : Memory} (h : wf (c :: rest) = true) : ∀ d ∈ rest, c.1 < d.1 := by
  induction rest generalizing c with
  | nil => simp
  | cons b rest ih =>
    simp only [wf, Bool.and_eq_true, decide_eq_true_eq] at h
    intro d hd
    rcases List.mem_cons.mp hd with rfl | hd
    · exact h.1
    · exact h.1.trans (ih h.2 d hd)

theorem wf_tail {c : Host.Cell} {rest : Memory} (h : wf (c :: rest) = true) : wf rest = true := by
  cases rest with
  | nil => rfl
  | cons b rest => simp only [wf, Bool.and_eq_true] at h; exact h.2

theorem wf_cons {c : Host.Cell} {rest : Memory} (hlt : ∀ d ∈ rest, c.1 < d.1) (h : wf rest = true) :
    wf (c :: rest) = true := by
  cases rest with
  | nil => rfl
  | cons b rest => simp [wf, h, hlt b (by simp)]

/-- Writing adds no offset but the one written. -/
theorem mem_write {m : Memory} {a : Nat} {v : Byte} {d : Host.Cell} (h : d ∈ write m a v) : d ∈ m ∨ d = (a, v) := by
  induction m with
  | nil => simpa [write] using h
  | cons c rest ih =>
    simp only [write] at h
    split at h
    · rcases List.mem_cons.mp h with rfl | h <;> simp_all
    · split at h
      · rcases List.mem_cons.mp h with rfl | h <;> simp_all
      · rcases List.mem_cons.mp h with rfl | h
        · simp
        · rcases ih h with h | h <;> simp [h]

/-- A write keeps the canonical form. -/
theorem wf_write {m : Memory} (h : wf m = true) (a : Nat) (v : Byte) : wf (write m a v) = true := by
  induction m with
  | nil => rfl
  | cons c rest ih =>
    have hlt := wf_head_lt h
    simp only [write]
    split
    · rename_i hac
      exact wf_cons (fun d hd => by rcases List.mem_cons.mp hd with rfl | hd <;> [exact hac; exact hac.trans (hlt d hd)]) h
    · split
      · rename_i _ hac
        exact wf_cons (fun d hd => by simpa [hac] using hlt d hd) (wf_tail h)
      · refine wf_cons (fun d hd => ?_) (ih (wf_tail h))
        rcases mem_write hd with hd | rfl
        · exact hlt d hd
        · simp only; omega

/-- Reading back what was written. -/
theorem read_write_same (m : Memory) (a : Nat) (v : Byte) : read (write m a v) a = some v := by
  induction m with
  | nil => simp [write, read]
  | cons c rest ih =>
    simp only [write]
    split
    · simp [read]
    · split
      · simp [read]
      · rename_i _ h
        simp [read, Ne.symm h, ih]

/-- A write leaves every other offset alone. -/
theorem read_write_other (m : Memory) {a b : Nat} (v : Byte) (h : b ≠ a) : read (write m a v) b = read m b := by
  induction m with
  | nil => simp [write, read, Ne.symm h]
  | cons c rest ih =>
    simp only [write]
    split
    · simp [read, Ne.symm h]
    · split
      · rename_i _ hac
        simp [read, ← hac, Ne.symm h]
      · simp [read, ih]

/-- Below its first offset a contiguous sequence has no byte; from there on it has its bytes in order. -/
theorem read_fromOffset (bytes : List Byte) (o a : Nat) :
    read (fromOffset o bytes) a = if a < o then none else bytes[a - o]? := by
  induction bytes generalizing o with
  | nil => simp [fromOffset, read]
  | cons v rest ih =>
    simp only [fromOffset, read, ih]
    by_cases h : o = a
    · simp [h]
    · by_cases h' : a < o
      · simp [h, h', Nat.lt_succ_of_lt h']
      · have e : a - o = (a - (o + 1)) + 1 := by omega
        have h'' : ¬ a < o + 1 := by omega
        simp [h, h', h'', e]

/-- A file's byte at an offset is the byte at that place of the sequence, if there is one (R41, R44). -/
@[simp] theorem read_ofBytes (bytes : List Byte) (a : Nat) : read (ofBytes bytes) a = bytes[a]? := by
  simp [ofBytes, read_fromOffset]

theorem mem_fromOffset {bytes : List Byte} {o : Nat} {d : Host.Cell} (h : d ∈ fromOffset o bytes) : o ≤ d.1 := by
  induction bytes generalizing o with
  | nil => simp [fromOffset] at h
  | cons v rest ih =>
    rcases List.mem_cons.mp h with rfl | h
    · exact Nat.le_refl _
    · exact (Nat.le_succ o).trans (ih h)

/-- A contiguous sequence is in the canonical form. -/
theorem wf_fromOffset (bytes : List Byte) (o : Nat) : wf (fromOffset o bytes) = true := by
  induction bytes generalizing o with
  | nil => rfl
  | cons v rest ih => exact wf_cons (fun d hd => mem_fromOffset hd) (ih (o + 1))

theorem wf_ofBytes (bytes : List Byte) : wf (ofBytes bytes) = true := wf_fromOffset bytes 0

@[simp] theorem map_snd_fromOffset (bytes : List Byte) (o : Nat) : (fromOffset o bytes).map (fun c => c.2) = bytes := by
  induction bytes generalizing o with
  | nil => rfl
  | cons v rest ih => simp [fromOffset, ih]

@[simp] theorem map_snd_ofBytes (bytes : List Byte) : (ofBytes bytes).map (fun c => c.2) = bytes :=
  map_snd_fromOffset bytes 0

@[simp] theorem isFile_ofBytes (bytes : List Byte) : isFile (ofBytes bytes) = true := by
  simp [isFile]

/-- A file is the contiguous sequence of its own bytes. -/
theorem eq_ofBytes_of_isFile {m : Memory} (h : isFile m = true) : m = ofBytes (m.map fun c => c.2) :=
  eq_of_beq h

theorem wf_of_isFile {m : Memory} (h : isFile m = true) : wf m = true := by
  rw [eq_ofBytes_of_isFile h]; exact wf_ofBytes _

/-- The bytes of a file, read one at a time. -/
theorem read_of_isFile {m : Memory} (h : isFile m = true) (a : Nat) : read m a = (m.map fun c => c.2)[a]? := by
  conv_lhs => rw [eq_ofBytes_of_isFile h]
  exact read_ofBytes _ _

end Sys2Proof.Machine.Memory
end

