-- ==== Sys2Proof/Laws/Operands.lean ====
section
/-! SUPPORT. Laws/Operands.lean: the digits of the renderers: which characters they are, how many, and the number they denote. -/

namespace Sys2Proof.Machine

/-- Everything about the character of one digit. -/
theorem digitChar_spec {d : Nat} (h : d < 16) :
    isUpperHex (digitChar d) = true ∧ digitValue (digitChar d) = d ∧ isPrintable (digitChar d) = true ∧
      digitChar d ≠ ' ' ∧ (d ≠ 0 → digitChar d ≠ '0') ∧ (d < 10 → isDecimal (digitChar d) = true) := by
  interval_cases d <;> decide

/-- Two digits with the same character are the same digit. -/
theorem digitChar_inj {a b : Nat} (ha : a < 16) (hb : b < 16) (h : digitChar a = digitChar b) : a = b := by
  have := congrArg digitValue h
  rwa [(digitChar_spec ha).2.1, (digitChar_spec hb).2.1] at this

theorem valueOf_append_digit (base : Nat) (t : Text) (c : Char) :
    valueOf base (t ++ [c]) = valueOf base t * base + digitValue c := by
  simp [valueOf]

/-- `hexK(v)` has exactly `k` characters. -/
@[simp] theorem length_hexFixed (k v : Nat) : (hexFixed k v).length = k := by
  induction k generalizing v with
  | zero => rfl
  | succ k ih => simp [hexFixed, ih]

/-- `hexK(v)` holds uppercase hexadecimal digits only. -/
theorem isUpperHex_of_mem_hexFixed {k v : Nat} {c : Char} (h : c ∈ hexFixed k v) : isUpperHex c = true := by
  induction k generalizing v with
  | zero => simp [hexFixed] at h
  | succ k ih =>
    rcases List.mem_append.mp h with h | h
    · exact ih h
    · rw [List.mem_singleton.mp h]; exact (digitChar_spec (Nat.mod_lt _ (by decide))).1

/-- `hexK(v)` denotes `v`, as far as `k` digits can. -/
theorem valueOf_hexFixed (k v : Nat) : valueOf 16 (hexFixed k v) = v % 16 ^ k := by
  induction k generalizing v with
  | zero => simp [hexFixed, valueOf, Nat.mod_one]
  | succ k ih =>
    rw [hexFixed, valueOf_append_digit, ih, (digitChar_spec (Nat.mod_lt _ (by decide))).2.1, pow_succ, Nat.mul_comm (16 ^ k),
      Nat.mod_mul]
    ring

/-- What `digits` gives, with enough fuel: at least one digit of the base, the value, and no leading zero. -/
theorem digitsFuel_spec {base : Nat} (h2 : 2 ≤ base) (h16 : base ≤ 16) {fuel v : Nat} (hf : v < fuel) :
    digitsFuel base fuel v ≠ [] ∧ (∀ c ∈ digitsFuel base fuel v, ∃ d < base, c = digitChar d) ∧
      valueOf base (digitsFuel base fuel v) = v ∧ (v ≠ 0 → (digitsFuel base fuel v).head? ≠ some '0') := by
  induction fuel generalizing v with
  | zero => omega
  | succ fuel ih =>
    simp only [digitsFuel]
    split
    · rename_i hv
      have hd := digitChar_spec (show v < 16 by omega)
      exact ⟨by simp, fun c hc => ⟨v, hv, by simpa using hc⟩, by simp [valueOf, hd.2.1], fun h => by simp [hd.2.2.2.2.1 h]⟩
    · have hlt : v / base < fuel := by
        have : v / base < v := Nat.div_lt_self (by omega) (by omega)
        omega
      obtain ⟨hne, hdig, hval, hzero⟩ := ih hlt
      have hm : v % base < base := Nat.mod_lt _ (by omega)
      refine ⟨by simp, fun c hc => ?_, ?_, fun _ => ?_⟩
      · rcases List.mem_append.mp hc with hc | hc
        · exact hdig c hc
        · exact ⟨_, hm, List.mem_singleton.mp hc⟩
      · rw [valueOf_append_digit, hval, (digitChar_spec (show v % base < 16 by omega)).2.1]
        exact Nat.div_add_mod' v base
      · rw [List.head?_append_of_ne_nil _ hne]
        exact hzero (Nat.ne_of_gt (Nat.div_pos (by omega) (by omega)))

/-- What `digits` gives: at least one digit of the base, the value, and no leading zero. -/
theorem digits_spec {base : Nat} (h2 : 2 ≤ base) (h16 : base ≤ 16) (v : Nat) :
    digits base v ≠ [] ∧ (∀ c ∈ digits base v, ∃ d < base, c = digitChar d) ∧ valueOf base (digits base v) = v ∧
      (v ≠ 0 → (digits base v).head? ≠ some '0') :=
  digitsFuel_spec h2 h16 (Nat.lt_succ_self v)

/-- The text of an `Fx` form meets what R219 lets a model assume. -/
theorem fxText_legal (kk : Byte) (x : RegIdx) : Config.fxText kk x ≠ [] ∧ isLegalText (Config.fxText kk x) = true :=
  ⟨(Config.fxString kk x).nonEmpty, (Config.fxString kk x).legal⟩

end Sys2Proof.Machine
end

