-- ==== Sys2Proof/Laws/State.lean ====
section
/-! SUPPORT. Laws/State.lean: what each named update of the state does to each field. -/

namespace Sys2Proof.Machine

@[simp] theorem State.print_stdout_progName (s : State) (t : Text) : (s.print .stdout t).progName = s.progName := rfl
@[simp] theorem State.print_stdout_argv (s : State) (t : Text) : (s.print .stdout t).argv = s.argv := rfl
@[simp] theorem State.print_stdout_disk (s : State) (t : Text) : (s.print .stdout t).disk = s.disk := rfl
@[simp] theorem State.print_stdout_entry (s : State) (t : Text) : (s.print .stdout t).entry = s.entry := rfl
@[simp] theorem State.print_stdout_readFailsAt (s : State) (t : Text) : (s.print .stdout t).readFailsAt = s.readFailsAt := rfl
@[simp] theorem State.print_stdout_phase (s : State) (t : Text) : (s.print .stdout t).phase = s.phase := rfl
@[simp] theorem State.print_stdout_streamHeld (s : State) (t : Text) : (s.print .stdout t).streamHeld = s.streamHeld := rfl
@[simp] theorem State.print_stdout_stream (s : State) (t : Text) : (s.print .stdout t).stream = s.stream := rfl
@[simp] theorem State.print_stdout_pos (s : State) (t : Text) : (s.print .stdout t).pos = s.pos := rfl
@[simp] theorem State.print_stdout_counter (s : State) (t : Text) : (s.print .stdout t).counter = s.counter := rfl
@[simp] theorem State.print_stdout_ports (s : State) (t : Text) : (s.print .stdout t).ports = s.ports := rfl
@[simp] theorem State.print_stdout_stdout (s : State) (t : Text) : (s.print .stdout t).stdout = s.stdout ++ t := rfl
@[simp] theorem State.print_stdout_stderr (s : State) (t : Text) : (s.print .stdout t).stderr = s.stderr := rfl

@[simp] theorem State.print_stderr_progName (s : State) (t : Text) : (s.print .stderr t).progName = s.progName := rfl
@[simp] theorem State.print_stderr_argv (s : State) (t : Text) : (s.print .stderr t).argv = s.argv := rfl
@[simp] theorem State.print_stderr_disk (s : State) (t : Text) : (s.print .stderr t).disk = s.disk := rfl
@[simp] theorem State.print_stderr_entry (s : State) (t : Text) : (s.print .stderr t).entry = s.entry := rfl
@[simp] theorem State.print_stderr_readFailsAt (s : State) (t : Text) : (s.print .stderr t).readFailsAt = s.readFailsAt := rfl
@[simp] theorem State.print_stderr_phase (s : State) (t : Text) : (s.print .stderr t).phase = s.phase := rfl
@[simp] theorem State.print_stderr_streamHeld (s : State) (t : Text) : (s.print .stderr t).streamHeld = s.streamHeld := rfl
@[simp] theorem State.print_stderr_stream (s : State) (t : Text) : (s.print .stderr t).stream = s.stream := rfl
@[simp] theorem State.print_stderr_pos (s : State) (t : Text) : (s.print .stderr t).pos = s.pos := rfl
@[simp] theorem State.print_stderr_counter (s : State) (t : Text) : (s.print .stderr t).counter = s.counter := rfl
@[simp] theorem State.print_stderr_ports (s : State) (t : Text) : (s.print .stderr t).ports = s.ports := rfl
@[simp] theorem State.print_stderr_stdout (s : State) (t : Text) : (s.print .stderr t).stdout = s.stdout := rfl
@[simp] theorem State.print_stderr_stderr (s : State) (t : Text) : (s.print .stderr t).stderr = s.stderr ++ t := rfl

@[simp] theorem State.withPorts_progName (s : State) (p : Ports) : (s.withPorts p).progName = s.progName := rfl
@[simp] theorem State.withPorts_argv (s : State) (p : Ports) : (s.withPorts p).argv = s.argv := rfl
@[simp] theorem State.withPorts_disk (s : State) (p : Ports) : (s.withPorts p).disk = s.disk := rfl
@[simp] theorem State.withPorts_entry (s : State) (p : Ports) : (s.withPorts p).entry = s.entry := rfl
@[simp] theorem State.withPorts_readFailsAt (s : State) (p : Ports) : (s.withPorts p).readFailsAt = s.readFailsAt := rfl
@[simp] theorem State.withPorts_phase (s : State) (p : Ports) : (s.withPorts p).phase = s.phase := rfl
@[simp] theorem State.withPorts_streamHeld (s : State) (p : Ports) : (s.withPorts p).streamHeld = s.streamHeld := rfl
@[simp] theorem State.withPorts_stream (s : State) (p : Ports) : (s.withPorts p).stream = s.stream := rfl
@[simp] theorem State.withPorts_pos (s : State) (p : Ports) : (s.withPorts p).pos = s.pos := rfl
@[simp] theorem State.withPorts_counter (s : State) (p : Ports) : (s.withPorts p).counter = s.counter := rfl
@[simp] theorem State.withPorts_ports (s : State) (p : Ports) : (s.withPorts p).ports = p := rfl
@[simp] theorem State.withPorts_stdout (s : State) (p : Ports) : (s.withPorts p).stdout = s.stdout := rfl
@[simp] theorem State.withPorts_stderr (s : State) (p : Ports) : (s.withPorts p).stderr = s.stderr := rfl

@[simp] theorem State.withCounter_progName (s : State) (c : Nat) : (s.withCounter c).progName = s.progName := rfl
@[simp] theorem State.withCounter_argv (s : State) (c : Nat) : (s.withCounter c).argv = s.argv := rfl
@[simp] theorem State.withCounter_disk (s : State) (c : Nat) : (s.withCounter c).disk = s.disk := rfl
@[simp] theorem State.withCounter_entry (s : State) (c : Nat) : (s.withCounter c).entry = s.entry := rfl
@[simp] theorem State.withCounter_readFailsAt (s : State) (c : Nat) : (s.withCounter c).readFailsAt = s.readFailsAt := rfl
@[simp] theorem State.withCounter_phase (s : State) (c : Nat) : (s.withCounter c).phase = s.phase := rfl
@[simp] theorem State.withCounter_streamHeld (s : State) (c : Nat) : (s.withCounter c).streamHeld = s.streamHeld := rfl
@[simp] theorem State.withCounter_stream (s : State) (c : Nat) : (s.withCounter c).stream = s.stream := rfl
@[simp] theorem State.withCounter_pos (s : State) (c : Nat) : (s.withCounter c).pos = s.pos := rfl
@[simp] theorem State.withCounter_counter (s : State) (c : Nat) : (s.withCounter c).counter = c := rfl
@[simp] theorem State.withCounter_ports (s : State) (c : Nat) : (s.withCounter c).ports = s.ports := rfl
@[simp] theorem State.withCounter_stdout (s : State) (c : Nat) : (s.withCounter c).stdout = s.stdout := rfl
@[simp] theorem State.withCounter_stderr (s : State) (c : Nat) : (s.withCounter c).stderr = s.stderr := rfl

@[simp] theorem State.withPhase_progName (s : State) (p : Phase) : (s.withPhase p).progName = s.progName := rfl
@[simp] theorem State.withPhase_argv (s : State) (p : Phase) : (s.withPhase p).argv = s.argv := rfl
@[simp] theorem State.withPhase_disk (s : State) (p : Phase) : (s.withPhase p).disk = s.disk := rfl
@[simp] theorem State.withPhase_entry (s : State) (p : Phase) : (s.withPhase p).entry = s.entry := rfl
@[simp] theorem State.withPhase_readFailsAt (s : State) (p : Phase) : (s.withPhase p).readFailsAt = s.readFailsAt := rfl
@[simp] theorem State.withPhase_phase (s : State) (p : Phase) : (s.withPhase p).phase = p := rfl
@[simp] theorem State.withPhase_streamHeld (s : State) (p : Phase) : (s.withPhase p).streamHeld = s.streamHeld := rfl
@[simp] theorem State.withPhase_stream (s : State) (p : Phase) : (s.withPhase p).stream = s.stream := rfl
@[simp] theorem State.withPhase_pos (s : State) (p : Phase) : (s.withPhase p).pos = s.pos := rfl
@[simp] theorem State.withPhase_counter (s : State) (p : Phase) : (s.withPhase p).counter = s.counter := rfl
@[simp] theorem State.withPhase_ports (s : State) (p : Phase) : (s.withPhase p).ports = s.ports := rfl
@[simp] theorem State.withPhase_stdout (s : State) (p : Phase) : (s.withPhase p).stdout = s.stdout := rfl
@[simp] theorem State.withPhase_stderr (s : State) (p : Phase) : (s.withPhase p).stderr = s.stderr := rfl

@[simp] theorem State.advance_progName (s : State) : (s.advance).progName = s.progName := rfl
@[simp] theorem State.advance_argv (s : State) : (s.advance).argv = s.argv := rfl
@[simp] theorem State.advance_disk (s : State) : (s.advance).disk = s.disk := rfl
@[simp] theorem State.advance_entry (s : State) : (s.advance).entry = s.entry := rfl
@[simp] theorem State.advance_readFailsAt (s : State) : (s.advance).readFailsAt = s.readFailsAt := rfl
@[simp] theorem State.advance_phase (s : State) : (s.advance).phase = s.phase := rfl
@[simp] theorem State.advance_streamHeld (s : State) : (s.advance).streamHeld = s.streamHeld := rfl
@[simp] theorem State.advance_stream (s : State) : (s.advance).stream = s.stream := rfl
@[simp] theorem State.advance_pos (s : State) : (s.advance).pos = s.pos + 2 := rfl
@[simp] theorem State.advance_counter (s : State) : (s.advance).counter = s.counter := rfl
@[simp] theorem State.advance_ports (s : State) : (s.advance).ports = s.ports := rfl
@[simp] theorem State.advance_stdout (s : State) : (s.advance).stdout = s.stdout := rfl
@[simp] theorem State.advance_stderr (s : State) : (s.advance).stderr = s.stderr := rfl

@[simp] theorem State.acquire_progName (s : State) (m : Memory) : (s.acquire m).progName = s.progName := rfl
@[simp] theorem State.acquire_argv (s : State) (m : Memory) : (s.acquire m).argv = s.argv := rfl
@[simp] theorem State.acquire_disk (s : State) (m : Memory) : (s.acquire m).disk = s.disk := rfl
@[simp] theorem State.acquire_entry (s : State) (m : Memory) : (s.acquire m).entry = s.entry := rfl
@[simp] theorem State.acquire_readFailsAt (s : State) (m : Memory) : (s.acquire m).readFailsAt = s.readFailsAt := rfl
@[simp] theorem State.acquire_phase (s : State) (m : Memory) : (s.acquire m).phase = s.phase := rfl
@[simp] theorem State.acquire_streamHeld (s : State) (m : Memory) : (s.acquire m).streamHeld = true := rfl
@[simp] theorem State.acquire_stream (s : State) (m : Memory) : (s.acquire m).stream = m := rfl
@[simp] theorem State.acquire_pos (s : State) (m : Memory) : (s.acquire m).pos = 0 := rfl
@[simp] theorem State.acquire_counter (s : State) (m : Memory) : (s.acquire m).counter = s.counter := rfl
@[simp] theorem State.acquire_ports (s : State) (m : Memory) : (s.acquire m).ports = s.ports := rfl
@[simp] theorem State.acquire_stdout (s : State) (m : Memory) : (s.acquire m).stdout = s.stdout := rfl
@[simp] theorem State.acquire_stderr (s : State) (m : Memory) : (s.acquire m).stderr = s.stderr := rfl

@[simp] theorem State.release_progName (s : State) : (s.release).progName = s.progName := rfl
@[simp] theorem State.release_argv (s : State) : (s.release).argv = s.argv := rfl
@[simp] theorem State.release_disk (s : State) : (s.release).disk = s.disk := rfl
@[simp] theorem State.release_entry (s : State) : (s.release).entry = s.entry := rfl
@[simp] theorem State.release_readFailsAt (s : State) : (s.release).readFailsAt = s.readFailsAt := rfl
@[simp] theorem State.release_phase (s : State) : (s.release).phase = s.phase := rfl
@[simp] theorem State.release_streamHeld (s : State) : (s.release).streamHeld = false := rfl
@[simp] theorem State.release_stream (s : State) : (s.release).stream = s.stream := rfl
@[simp] theorem State.release_pos (s : State) : (s.release).pos = s.pos := rfl
@[simp] theorem State.release_counter (s : State) : (s.release).counter = s.counter := rfl
@[simp] theorem State.release_ports (s : State) : (s.release).ports = s.ports := rfl
@[simp] theorem State.release_stdout (s : State) : (s.release).stdout = s.stdout := rfl
@[simp] theorem State.release_stderr (s : State) : (s.release).stderr = s.stderr := rfl

@[simp] theorem exitRun_progName (s : State) (code : Nat) : (exitRun s code).progName = s.progName := rfl
@[simp] theorem exitRun_argv (s : State) (code : Nat) : (exitRun s code).argv = s.argv := rfl
@[simp] theorem exitRun_disk (s : State) (code : Nat) : (exitRun s code).disk = s.disk := rfl
@[simp] theorem exitRun_entry (s : State) (code : Nat) : (exitRun s code).entry = s.entry := rfl
@[simp] theorem exitRun_readFailsAt (s : State) (code : Nat) : (exitRun s code).readFailsAt = s.readFailsAt := rfl
@[simp] theorem exitRun_phase (s : State) (code : Nat) : (exitRun s code).phase = .exited code := rfl
@[simp] theorem exitRun_streamHeld (s : State) (code : Nat) : (exitRun s code).streamHeld = false := rfl
@[simp] theorem exitRun_stream (s : State) (code : Nat) : (exitRun s code).stream = s.stream := rfl
@[simp] theorem exitRun_pos (s : State) (code : Nat) : (exitRun s code).pos = s.pos := rfl
@[simp] theorem exitRun_counter (s : State) (code : Nat) : (exitRun s code).counter = s.counter := rfl
@[simp] theorem exitRun_ports (s : State) (code : Nat) : (exitRun s code).ports = s.ports := rfl
@[simp] theorem exitRun_stdout (s : State) (code : Nat) : (exitRun s code).stdout = s.stdout := rfl
@[simp] theorem exitRun_stderr (s : State) (code : Nat) : (exitRun s code).stderr = s.stderr := rfl

@[simp] theorem finishRecord_progName (s : State) (p : Ports) (shown : Text) :
    (finishRecord s p shown).progName = s.progName := rfl
@[simp] theorem finishRecord_argv (s : State) (p : Ports) (shown : Text) :
    (finishRecord s p shown).argv = s.argv := rfl
@[simp] theorem finishRecord_disk (s : State) (p : Ports) (shown : Text) :
    (finishRecord s p shown).disk = s.disk := rfl
@[simp] theorem finishRecord_entry (s : State) (p : Ports) (shown : Text) :
    (finishRecord s p shown).entry = s.entry := rfl
@[simp] theorem finishRecord_readFailsAt (s : State) (p : Ports) (shown : Text) :
    (finishRecord s p shown).readFailsAt = s.readFailsAt := rfl
@[simp] theorem finishRecord_phase (s : State) (p : Ports) (shown : Text) :
    (finishRecord s p shown).phase = s.phase := rfl
@[simp] theorem finishRecord_streamHeld (s : State) (p : Ports) (shown : Text) :
    (finishRecord s p shown).streamHeld = s.streamHeld := rfl
@[simp] theorem finishRecord_stream (s : State) (p : Ports) (shown : Text) :
    (finishRecord s p shown).stream = s.stream := rfl
@[simp] theorem finishRecord_pos (s : State) (p : Ports) (shown : Text) :
    (finishRecord s p shown).pos = s.pos := rfl
@[simp] theorem finishRecord_counter (s : State) (p : Ports) (shown : Text) :
    (finishRecord s p shown).counter = s.counter + 1 := rfl
@[simp] theorem finishRecord_ports (s : State) (p : Ports) (shown : Text) :
    (finishRecord s p shown).ports = p := rfl
@[simp] theorem finishRecord_stdout (s : State) (p : Ports) (shown : Text) :
    (finishRecord s p shown).stdout = s.stdout ++ listingLine s.counter p.insn shown := rfl
@[simp] theorem finishRecord_stderr (s : State) (p : Ports) (shown : Text) :
    (finishRecord s p shown).stderr = s.stderr := rfl

end Sys2Proof.Machine
end

