-- ==== Sys2Proof/Laws/Ops.lean ====
section
/-! SUPPORT. Laws/Ops.lean: what each shared operation does, once. -/

namespace Sys2Proof.Machine

/-! ### Ports -/

@[simp] theorem Ports.drive_insn (w : Word) (tid : BitVec 6) (text : Text) : (Ports.drive w tid text).insn = w := rfl

@[simp] theorem Ports.unrecognized_insn (w : Word) : (Ports.unrecognized w).insn = w := rfl

/-- Ports driven with a template id that is not 0 show the recognized result. -/
theorem Ports.result_drive {tid : BitVec 6} (w : Word) (text : Text) (h : tid ≠ 0#6) :
    (Ports.drive w tid text).result = .recognized tid text := by
  simp [Ports.result, Ports.drive, validOf, h]

@[simp] theorem Ports.result_unrecognized (w : Word) : (Ports.unrecognized w).result = .unrecognized := rfl

/-! ### Outputs -/

/-- Printing changes the two outputs alone, and only adds to them. -/
theorem State.print_cases (s : State) (o : OutStream) (t : Text) :
    (o = .stdout ∧ s.print o t = { s with stdout := s.stdout ++ t }) ∨
      (o = .stderr ∧ s.print o t = { s with stderr := s.stderr ++ t }) := by
  cases o
  · exact .inl ⟨rfl, rfl⟩
  · exact .inr ⟨rfl, rfl⟩

/-! ### Reading a record -/

/-- A record is read exactly when no byte of it fails to be read and both its bytes exist; the word is the two bytes, the first one
high, and only the position moves (R43, R46). -/
theorem readRecord_eq_some {s s1 : State} {w : Word} :
    readRecord s = some (w, s1) ↔
      s.readFails = false ∧ ∃ b0 b1, Memory.read s.stream s.pos = some b0 ∧ Memory.read s.stream (s.pos + 1) = some b1 ∧
        w = wordOfBytes b0 b1 ∧ s1 = s.advance := by
  unfold readRecord
  split
  · simp_all
  · rename_i hf
    split
    · rename_i b0 b1 h0 h1
      simp only [Option.some.injEq, Prod.mk.injEq, h0, h1]
      constructor
      · rintro ⟨rfl, rfl⟩; exact ⟨by simpa using hf, b0, b1, rfl, rfl, rfl, rfl⟩
      · rintro ⟨-, c0, c1, rfl, rfl, rfl, rfl⟩; exact ⟨rfl, rfl⟩
    · rename_i hno
      simp only [reduceCtorEq, false_iff, not_and, not_exists]
      intro _ b0 b1 h0 h1
      exact absurd h1 (by simpa [h0] using hno b0 b1 h0)

/-- No record is read exactly when the read fails or one of the two bytes does not exist (R44, R45). -/
theorem readRecord_eq_none {s : State} :
    readRecord s = none ↔
      s.readFails = true ∨ Memory.read s.stream s.pos = none ∨ Memory.read s.stream (s.pos + 1) = none := by
  unfold readRecord
  split
  · simp_all
  · split
    · simp_all
    · rename_i hno
      simp only [true_iff]
      cases h0 : Memory.read s.stream s.pos with
      | none => simp
      | some b0 =>
        cases h1 : Memory.read s.stream (s.pos + 1) with
        | none => simp
        | some b1 => exact absurd h1 (hno b0 b1 h0)

/-! ### Before the loop -/

/-- The argument check: one argument and the file is opened next, or the usage message and exit code 1 (R247). -/
theorem checkArgs_cases (s : State) :
    (∃ path, s.argv = [path] ∧ checkArgs s = s.withPhase .openFile) ∨
      (s.argv.length ≠ 1 ∧ checkArgs s = exitRun (s.print .stdout (Config.usageText s.progName)) 1) := by
  unfold checkArgs
  split
  · rename_i path h; exact .inl ⟨path, h, rfl⟩
  · rename_i h
    refine .inr ⟨fun hlen => ?_, rfl⟩
    obtain ⟨path, hp⟩ := List.length_eq_one_iff.mp hlen
    exact h path hp

/-- Opening the file: its bytes at offset 0 and the counter is set next, or the open-error message and exit code 1 (R248). -/
theorem openFile_cases (s : State) :
    (∃ m, findFile s.disk s.path = some m ∧ openFile s = (s.acquire m).withPhase .initCounter) ∨
      (findFile s.disk s.path = none ∧ openFile s = exitRun (s.print Config.openErrStream (Config.openErrText s.path)) 1) := by
  unfold openFile
  split
  · rename_i m h; exact .inl ⟨m, h, rfl⟩
  · rename_i h; exact .inr ⟨h, rfl⟩

/-- The file found is one of the files that there are, under the path asked for. -/
theorem mem_of_findFile {disk : List FileEntry} {path : Text} {m : Memory} (h : findFile disk path = some m) :
    ∃ f ∈ disk, f.path = path ∧ f.contents = m := by
  induction disk with
  | nil => simp [findFile] at h
  | cons f rest ih =>
    simp only [findFile] at h
    split at h
    · rename_i hp; exact ⟨f, by simp, hp, by simpa using h⟩
    · obtain ⟨g, hg, hp⟩ := ih h; exact ⟨g, by simp [hg], hp⟩

@[simp] theorem initCounter_eq (s : State) : initCounter s = { s with counter := s.entry, phase := .loop } := rfl

/-! ### A record placed from outside -/

/-- The placed word is the record that is read next. -/
theorem readRecord_placeRecord (s : State) (nbits w : Nat) :
    readRecord (placeRecord s nbits w) = some (BitVec.ofNat 16 (w % 2 ^ nbits), (placeRecord s nbits w).advance) := by
  rw [readRecord_eq_some]
  refine ⟨rfl, _, _, ?_, ?_, (wordOfBytes_high_low _).symm, rfl⟩
  · exact (Memory.read_write_other _ _ (Nat.ne_of_lt (Nat.lt_succ_self _))).trans (Memory.read_write_same _ _ _)
  · exact Memory.read_write_same _ _ _

/-- Placing a record keeps the canonical form of the stream. -/
theorem wf_placeRecord {s : State} (h : Memory.wf s.stream = true) (nbits w : Nat) :
    Memory.wf (placeRecord s nbits w).stream = true :=
  Memory.wf_write (Memory.wf_write h _ _) _ _

end Sys2Proof.Machine
end

