-- ==== Sys2Proof/Laws/PerInstr.lean ====
section
/-! SUPPORT. Laws/PerInstr.lean: for each instruction, R108's case analysis of its word gives the template id of its row. -/

namespace Sys2Proof.Laws.EncodeSelectsTemplate

/-- The word of a well-formed instruction selects the instruction's own template (R79, R108). -/
def Statement (i : Instr) : Prop := i.wellFormed = true → Machine.Block.tidOf (encode i) = i.templateId

theorem cls (x : RegIdx) : Statement (.cls x) := fun _ => by
  simp [Machine.Block.tidOf, encode, Instr.templateId]

theorem ret (x : RegIdx) : Statement (.ret x) := fun _ => by
  simp [Machine.Block.tidOf, encode, Instr.templateId]

theorem sys (nnn : Addr) : Statement (.sys nnn) := by
  intro h
  simp only [Instr.wellFormed, Bool.and_eq_true, bne_iff_ne, ne_eq] at h
  simp [Machine.Block.tidOf, encode, Instr.templateId, h.1, h.2]

theorem jp (nnn : Addr) : Statement (.jp nnn) := fun _ => by
  simp [Machine.Block.tidOf, encode, Instr.templateId]

theorem call (nnn : Addr) : Statement (.call nnn) := fun _ => by
  simp [Machine.Block.tidOf, encode, Instr.templateId]

theorem seByte (x : RegIdx) (kk : Byte) : Statement (.seByte x kk) := fun _ => by
  simp [Machine.Block.tidOf, encode, Instr.templateId]

theorem sneByte (x : RegIdx) (kk : Byte) : Statement (.sneByte x kk) := fun _ => by
  simp [Machine.Block.tidOf, encode, Instr.templateId]

theorem seReg (x y : RegIdx) : Statement (.seReg x y) := fun _ => by
  simp [Machine.Block.tidOf, encode, Instr.templateId]

theorem ldByte (x : RegIdx) (kk : Byte) : Statement (.ldByte x kk) := fun _ => by
  simp [Machine.Block.tidOf, encode, Instr.templateId]

theorem addByte (x : RegIdx) (kk : Byte) : Statement (.addByte x kk) := fun _ => by
  simp [Machine.Block.tidOf, encode, Instr.templateId]

theorem ldReg (x y : RegIdx) : Statement (.ldReg x y) := fun _ => by
  simp [Machine.Block.tidOf, encode, Instr.templateId]

theorem orReg (x y : RegIdx) : Statement (.orReg x y) := fun _ => by
  simp [Machine.Block.tidOf, encode, Instr.templateId]

theorem andReg (x y : RegIdx) : Statement (.andReg x y) := fun _ => by
  simp [Machine.Block.tidOf, encode, Instr.templateId]

theorem xorReg (x y : RegIdx) : Statement (.xorReg x y) := fun _ => by
  simp [Machine.Block.tidOf, encode, Instr.templateId]

theorem addReg (x y : RegIdx) : Statement (.addReg x y) := fun _ => by
  simp [Machine.Block.tidOf, encode, Instr.templateId]

theorem subReg (x y : RegIdx) : Statement (.subReg x y) := fun _ => by
  simp [Machine.Block.tidOf, encode, Instr.templateId]

theorem shrReg (x y : RegIdx) : Statement (.shrReg x y) := fun _ => by
  simp [Machine.Block.tidOf, encode, Instr.templateId]

theorem subnReg (x y : RegIdx) : Statement (.subnReg x y) := fun _ => by
  simp [Machine.Block.tidOf, encode, Instr.templateId]

theorem shlReg (x y : RegIdx) : Statement (.shlReg x y) := fun _ => by
  simp [Machine.Block.tidOf, encode, Instr.templateId]

theorem sneReg (x y : RegIdx) : Statement (.sneReg x y) := fun _ => by
  simp [Machine.Block.tidOf, encode, Instr.templateId]

theorem ldI (nnn : Addr) : Statement (.ldI nnn) := fun _ => by
  simp [Machine.Block.tidOf, encode, Instr.templateId]

theorem jpV0 (nnn : Addr) : Statement (.jpV0 nnn) := fun _ => by
  simp [Machine.Block.tidOf, encode, Instr.templateId]

theorem rnd (x : RegIdx) (kk : Byte) : Statement (.rnd x kk) := fun _ => by
  simp [Machine.Block.tidOf, encode, Instr.templateId]

theorem drw (x y : RegIdx) (n : Nibble) : Statement (.drw x y n) := fun _ => by
  simp [Machine.Block.tidOf, encode, Instr.templateId]

theorem skp (x : RegIdx) : Statement (.skp x) := fun _ => by
  simp [Machine.Block.tidOf, encode, Instr.templateId]

theorem sknp (x : RegIdx) : Statement (.sknp x) := fun _ => by
  simp [Machine.Block.tidOf, encode, Instr.templateId]

theorem fx07 (x : RegIdx) : Statement (.fx07 x) := fun _ => by
  simp [Machine.Block.tidOf, encode, Instr.templateId, Machine.Block.index, Config.fxSel]

theorem fx0A (x : RegIdx) : Statement (.fx0A x) := fun _ => by
  simp [Machine.Block.tidOf, encode, Instr.templateId, Machine.Block.index, Config.fxSel]

theorem fx15 (x : RegIdx) : Statement (.fx15 x) := fun _ => by
  simp [Machine.Block.tidOf, encode, Instr.templateId, Machine.Block.index, Config.fxSel]

theorem fx18 (x : RegIdx) : Statement (.fx18 x) := fun _ => by
  simp [Machine.Block.tidOf, encode, Instr.templateId, Machine.Block.index, Config.fxSel]

theorem fx1E (x : RegIdx) : Statement (.fx1E x) := fun _ => by
  simp [Machine.Block.tidOf, encode, Instr.templateId, Machine.Block.index, Config.fxSel]

theorem fx29 (x : RegIdx) : Statement (.fx29 x) := fun _ => by
  simp [Machine.Block.tidOf, encode, Instr.templateId, Machine.Block.index, Config.fxSel]

theorem fx33 (x : RegIdx) : Statement (.fx33 x) := fun _ => by
  simp [Machine.Block.tidOf, encode, Instr.templateId, Machine.Block.index, Config.fxSel]

theorem fx55 (x : RegIdx) : Statement (.fx55 x) := fun _ => by
  simp [Machine.Block.tidOf, encode, Instr.templateId, Machine.Block.index, Config.fxSel]

theorem fx65 (x : RegIdx) : Statement (.fx65 x) := fun _ => by
  simp [Machine.Block.tidOf, encode, Instr.templateId, Machine.Block.index, Config.fxSel]

end Sys2Proof.Laws.EncodeSelectsTemplate
end

