-- ==== Sys2Proof/Laws/Step.lean ====
section
/-! SUPPORT. Laws/Step.lean: what a step can do, once. -/

namespace Sys2Proof.Machine

/-- One record of the loop: the end of the stream, an instruction's own outcome, or an Unrecognized word. -/
theorem loopStep_cases (s : State) :
    (readRecord s = none ∧ loopStep s = .next (exitRun s 0)) ∨
    (∃ w i, readRecord s = some (w, s.advance) ∧ decode w = .ok i ∧ loopStep s = exec i s.advance) ∨
    (∃ w e, readRecord s = some (w, s.advance) ∧ decode w = .error e ∧ loopStep s = unrecognized w s.advance) := by
  cases h : readRecord s with
  | none => exact .inl ⟨rfl, by simp [loopStep, h]⟩
  | some r =>
    obtain ⟨w, s1⟩ := r
    obtain ⟨-, b0, b1, -, -, -, rfl⟩ := readRecord_eq_some.mp h
    cases hd : decode w with
    | ok i => exact .inr (.inl ⟨w, i, rfl, hd, by simp [loopStep, h, hd]⟩)
    | error e => exact .inr (.inr ⟨w, e, rfl, hd, by simp [loopStep, h, hd]⟩)

/-- Every step that answers a next state is one of these. -/
theorem step_cases {s t : State} (h : step s = .next t) :
    (s.phase = .checkArgs ∧ t = checkArgs s) ∨
    (s.phase = .openFile ∧ t = openFile s) ∨
    (s.phase = .initCounter ∧ t = initCounter s) ∨
    (s.phase = .loop ∧ readRecord s = none ∧ t = exitRun s 0) ∨
    (s.phase = .loop ∧ ∃ w i, readRecord s = some (w, s.advance) ∧ decode w = .ok i ∧
      t = finishRecord s.advance (Ports.drive (encode i) (BitVec.ofNat 6 i.templateId) (textOf i)) (textOf i)) ∨
    (s.phase = .loop ∧ ∃ w e, readRecord s = some (w, s.advance) ∧ decode w = .error e ∧
      t = finishRecord s.advance (Ports.unrecognized w) placeholder) := by
  unfold step at h
  split at h
  next hp => exact .inl ⟨hp, by simpa using h.symm⟩
  next hp => exact .inr (.inl ⟨hp, by simpa using h.symm⟩)
  next hp => exact .inr (.inr (.inl ⟨hp, by simpa using h.symm⟩))
  next hp =>
    rcases loopStep_cases s with ⟨hr, hl⟩ | ⟨w, i, hr, hd, hl⟩ | ⟨w, e, hr, hd, hl⟩
    · rw [hl] at h
      exact .inr (.inr (.inr (.inl ⟨hp, hr, by simpa using h.symm⟩)))
    · rw [hl, exec_eq, recognized] at h
      exact .inr (.inr (.inr (.inr (.inl ⟨hp, w, i, hr, hd, by simpa using h.symm⟩))))
    · rw [hl, unrecognized] at h
      exact .inr (.inr (.inr (.inr (.inr ⟨hp, w, e, hr, hd, by simpa using h.symm⟩))))
  next => simp at h

end Sys2Proof.Machine
end

