-- ==== Sys2Proof/Tests/Slice0.lean ====
section
/-! SUPPORT. Tests/Slice0.lean: checks of single words, lines and steps against the vectors of 95_test_vectors.md (L1, L2), the smoke test of
WellFormed, and for each statement with hypotheses a state and operands that meet them. -/

open Sys2Proof Sys2Proof.Machine

namespace Sys2Proof.Tests

/-! ### WellFormed refuses an ill-formed term of each check (R142) -/

theorem test_wf_refuses_sys_of_cls_byte : (Instr.sys 0xAE0#12).wellFormed = false := by decide
theorem test_wf_refuses_sys_of_ret_byte : (Instr.sys 0x0EE#12).wellFormed = false := by decide
theorem test_wf_admits_neighbours : (Instr.sys 0x0E1#12).wellFormed = true ∧ (Instr.sys 0x0ED#12).wellFormed = true := by decide

/-! ### Each instruction: the word of a vector of L2.1 to L2.5, written out, and what a step on it answers -/

/-- The template id and the text on the ports after one step on a table word. -/
def answer (w : Nat) : Option (Bool × BitVec 6 × Text) :=
  match step (State.reset.withFetchWord 16 w) with
  | .next t => some (t.ports.valid, t.ports.tid, t.ports.text)
  | _ => none

/-- The template id alone, for the `Fx` forms, whose text is open. -/
def answerTid (w : Nat) : Option (Bool × BitVec 6) :=
  match step (State.reset.withFetchWord 16 w) with
  | .next t => some (t.ports.valid, t.ports.tid)
  | _ => none

/-- What one step on a table word prints. -/
def printed (s : State) (w : Nat) : Option Text :=
  match step (s.withFetchWord 16 w) with
  | .next t => some t.stdout
  | _ => none

theorem test_cls_word : decodeTableWord 16 0xAE0 = some (.cls 0xA) := by decide
theorem test_cls_step : answer 0xAE0 = some (true, 1, "CLS".toList) := by decide
theorem test_ret_word : decodeTableWord 16 0xFEE = some (.ret 0xF) := by decide
theorem test_ret_step : answer 0xFEE = some (true, 2, "RET".toList) := by decide
theorem test_sys_word : decodeTableWord 16 0x00E1 = some (.sys 0x0E1) := by decide
theorem test_sys_step : answer 0x00E1 = some (true, 3, "SYS 0x0E1".toList) := by decide
theorem test_jp_word : decodeTableWord 16 0x1234 = some (.jp 0x234) := by decide
theorem test_jp_step : answer 0x1234 = some (true, 4, "JP 0x234".toList) := by decide
theorem test_call_word : decodeTableWord 16 0x2ABC = some (.call 0xABC) := by decide
theorem test_call_step : answer 0x2ABC = some (true, 5, "CALL 0xABC".toList) := by decide
theorem test_seByte_word : decodeTableWord 16 0x310A = some (.seByte 0x1 0x0A) := by decide
theorem test_seByte_step : answer 0x310A = some (true, 6, "SE V1, 0x0A (10)".toList) ∧
    answer 0x3000 = some (true, 6, "SE V0, 0x00 (0)".toList) := by decide
theorem test_sneByte_word : decodeTableWord 16 0x4F64 = some (.sneByte 0xF 0x64) := by decide
theorem test_sneByte_step : answer 0x4F64 = some (true, 7, "SNE VF, 0x64 (100)".toList) := by decide
theorem test_seReg_word : decodeTableWord 16 0x5010 = some (.seReg 0x0 0x1) := by decide
theorem test_seReg_step : answer 0x5010 = some (true, 8, "SE V0, V1".toList) := by decide
theorem test_ldByte_word : decodeTableWord 16 0x6A05 = some (.ldByte 0xA 0x05) := by decide
theorem test_ldByte_step : answer 0x6A05 = some (true, 9, "LD VA, 0x05 (5)".toList) := by decide
theorem test_addByte_word : decodeTableWord 16 0x7080 = some (.addByte 0x0 0x80) := by decide
theorem test_addByte_step : answer 0x7080 = some (true, 10, "ADD V0, 0x80 (128)".toList) := by decide
theorem test_ldReg_word : decodeTableWord 16 0x8120 = some (.ldReg 0x1 0x2) := by decide
theorem test_ldReg_step : answer 0x8120 = some (true, 11, "LD V1, V2".toList) := by decide
theorem test_orReg_word : decodeTableWord 16 0x8AB1 = some (.orReg 0xA 0xB) := by decide
theorem test_orReg_step : answer 0x8AB1 = some (true, 12, "OR VA, VB".toList) := by decide
theorem test_andReg_word : decodeTableWord 16 0x8342 = some (.andReg 0x3 0x4) := by decide
theorem test_andReg_step : answer 0x8342 = some (true, 13, "AND V3, V4".toList) := by decide
theorem test_xorReg_word : decodeTableWord 16 0x8563 = some (.xorReg 0x5 0x6) := by decide
theorem test_xorReg_step : answer 0x8563 = some (true, 14, "XOR V5, V6".toList) := by decide
theorem test_addReg_word : decodeTableWord 16 0x8E04 = some (.addReg 0xE 0x0) := by decide
theorem test_addReg_step : answer 0x8E04 = some (true, 15, "ADD VE, V0".toList) := by decide
theorem test_subReg_word : decodeTableWord 16 0x8785 = some (.subReg 0x7 0x8) := by decide
theorem test_subReg_step : answer 0x8785 = some (true, 16, "SUB V7, V8".toList) := by decide
theorem test_shrReg_word : decodeTableWord 16 0x89A6 = some (.shrReg 0x9 0xA) := by decide
theorem test_shrReg_step : answer 0x89A6 = some (true, 17, "SHR V9, VA".toList) := by decide
theorem test_subnReg_word : decodeTableWord 16 0x8BC7 = some (.subnReg 0xB 0xC) := by decide
theorem test_subnReg_step : answer 0x8BC7 = some (true, 18, "SUBN VB, VC".toList) := by decide
theorem test_shlReg_word : decodeTableWord 16 0x8DEE = some (.shlReg 0xD 0xE) := by decide
theorem test_shlReg_step : answer 0x8DEE = some (true, 19, "SHL VD, VE".toList) := by decide
theorem test_sneReg_word : decodeTableWord 16 0x9010 = some (.sneReg 0x0 0x1) := by decide
theorem test_sneReg_step : answer 0x9010 = some (true, 20, "SNE V0, V1".toList) := by decide
theorem test_ldI_word : decodeTableWord 16 0xA2F0 = some (.ldI 0x2F0) := by decide
theorem test_ldI_step : answer 0xA2F0 = some (true, 21, "LD I, 0x2F0".toList) := by decide
theorem test_jpV0_word : decodeTableWord 16 0xB5FF = some (.jpV0 0x5FF) := by decide
theorem test_jpV0_step : answer 0xB5FF = some (true, 22, "JP V0, 0x5FF".toList) := by decide
theorem test_rnd_word : decodeTableWord 16 0xC30F = some (.rnd 0x3 0x0F) := by decide
theorem test_rnd_step : answer 0xC30F = some (true, 23, "RND V3, 0x0F (15)".toList) := by decide
theorem test_drw_word : decodeTableWord 16 0xD12F = some (.drw 0x1 0x2 0xF) := by decide
theorem test_drw_step : answer 0xD12F = some (true, 24, "DRW V1, V2, 0xF".toList) := by decide
theorem test_skp_word : decodeTableWord 16 0xE59E = some (.skp 0x5) := by decide
theorem test_skp_step : answer 0xE59E = some (true, 25, "SKP V5".toList) := by decide
theorem test_sknp_word : decodeTableWord 16 0xE3A1 = some (.sknp 0x3) := by decide
theorem test_sknp_step : answer 0xE3A1 = some (true, 26, "SKNP V3".toList) := by decide
theorem test_fx07_word : decodeTableWord 16 0xF307 = some (.fx07 0x3) := by decide
theorem test_fx07_step : answerTid 0xF307 = some (true, 27) ∧ Block.fxTextDefault 0x07 0x3 = "LD V3, DT".toList := by decide
theorem test_fx0A_word : decodeTableWord 16 0xF20A = some (.fx0A 0x2) := by decide
theorem test_fx0A_step : answerTid 0xF20A = some (true, 28) ∧ Block.fxTextDefault 0x0A 0x2 = "LD V2, K".toList := by decide
theorem test_fx15_word : decodeTableWord 16 0xF415 = some (.fx15 0x4) := by decide
theorem test_fx15_step : answerTid 0xF415 = some (true, 29) ∧ Block.fxTextDefault 0x15 0x4 = "LD DT, V4".toList := by decide
theorem test_fx18_word : decodeTableWord 16 0xF518 = some (.fx18 0x5) := by decide
theorem test_fx18_step : answerTid 0xF518 = some (true, 30) ∧ Block.fxTextDefault 0x18 0x5 = "LD ST, V5".toList := by decide
theorem test_fx1E_word : decodeTableWord 16 0xF61E = some (.fx1E 0x6) := by decide
theorem test_fx1E_step : answerTid 0xF61E = some (true, 31) ∧ Block.fxTextDefault 0x1E 0x6 = "ADD I, V6".toList := by decide
theorem test_fx29_word : decodeTableWord 16 0xF729 = some (.fx29 0x7) := by decide
theorem test_fx29_step : answerTid 0xF729 = some (true, 32) ∧ Block.fxTextDefault 0x29 0x7 = "LD F, V7".toList := by decide
theorem test_fx33_word : decodeTableWord 16 0xF833 = some (.fx33 0x8) := by decide
theorem test_fx33_step : answerTid 0xF833 = some (true, 33) ∧ Block.fxTextDefault 0x33 0x8 = "LD B, V8".toList := by decide
theorem test_fx55_word : decodeTableWord 16 0xFF55 = some (.fx55 0xF) := by decide
theorem test_fx55_step : answerTid 0xFF55 = some (true, 34) ∧ Block.fxTextDefault 0x55 0xF = "LD [I], VF".toList := by decide
theorem test_fx65_word : decodeTableWord 16 0xF065 = some (.fx65 0x0) := by decide
theorem test_fx65_step : answerTid 0xF065 = some (true, 35) ∧ Block.fxTextDefault 0x65 0x0 = "LD V0, [I]".toList := by decide

/-! ### Words next to the selectors (L1, L2.2 to L2.5): Unrecognized -/

theorem test_unrecognized_of_5_8_9 :
    [0x5001, 0x500F, 0x5AB8, 0x8008, 0x800D, 0x800F, 0x8E08, 0x9001, 0x900F].map (decodeTableWord 16) =
      List.replicate 9 none := by decide
theorem test_unrecognized_of_E :
    [0xE09D, 0xE09F, 0xE0A0, 0xE0A2, 0xE000, 0xE1AE, 0xEFFF].map (decodeTableWord 16) = List.replicate 7 none := by decide
theorem test_unrecognized_of_F :
    [0xF006, 0xF008, 0xF00B, 0xF014, 0xF01F, 0xF034, 0xF056, 0xF066, 0xFFFF].map (decodeTableWord 16) =
      List.replicate 9 none := by decide
theorem test_unrecognized_ports : answer 0xFFFF = some (false, 0, []) := by decide
theorem test_unrecognized_fields :
    (Ports.unrecognized 0x5AB8).fX = 0xA ∧ (Ports.unrecognized 0x5AB8).fY = 0xB ∧ (Ports.unrecognized 0x5AB8).fN = 0x8 ∧
      (Ports.unrecognized 0x5AB8).fKk = 0xB8 ∧ (Ports.unrecognized 0x5AB8).fNnn = 0xAB8 := by decide
theorem test_short_record : decodeBytes [0x12] = .error .shortRecord ∧ decodeBytes [] = .error .shortRecord := ⟨rfl, rfl⟩
theorem test_decode_bytes_big_endian :
    decodeBytes [0x34, 0x12, 0x56] = .ok (.seByte 0x4 0x12, [0x56]) := by decide

/-! ### The host's lines (L1-E1, L2.6) -/

theorem test_line_jp : printed State.reset 0x1234 = some "0x200:\t0x1234\tJP 0x234\n".toList := by decide
theorem test_line_unrecognized : printed State.reset 0x5001 = some "0x200:\t0x5001\t???\n".toList := by decide
theorem test_line_entry_zero : printed (State.reset.withCounter 0) 0x00E0 = some "0x000:\t0x00E0\tCLS\n".toList := by decide
theorem test_line_past_FFF : printed (State.reset.withCounter 0x1000) 0x00EE = some "0x1000:\t0x00EE\tRET\n".toList := by decide
theorem test_text_max_default : Config.textMaxOf Block.fxTextDefault = 18 := by decide
theorem test_fx_default_legal :
    (Config.fxSel.all fun kk => Config.allRegs.all fun x => isLegalText (Block.fxTextDefault kk x)) = true := by decide

/-! ### Before and after the loop (L2.7, L1-E2, L1-E3) -/

theorem test_two_arguments : (checkArgs (State.commandLine [] [['a'], ['b']] [])).phase = .exited 1 := by decide
theorem test_missing_file :
    (openFile ((State.commandLine [] [['a']] []).withPhase .openFile)).phase = .exited 1 := by decide
theorem test_one_byte_file :
    step (initCounter (State.driverContract [0x12] 0x200)) =
      .next (exitRun (initCounter (State.driverContract [0x12] 0x200)) 0) := rfl

/-! ### States and operands that meet the hypotheses of the statements -/

/-- A run in its loop over the bytes of a word that decodes and of one that does not, with a trailing byte. -/
def loopState : State := initCounter (State.driverContract [0x12, 0x34, 0x50, 0x01, 0xAB] 0x200)

/-- The same run at its second record. -/
def secondRecord : State := loopState.advance

/-- The same run at its trailing byte. -/
def trailingByte : State := secondRecord.advance

theorem witness_recognized_record : loopState.phase = .loop ∧ readRecord loopState = some (0x1234, loopState.advance) := by decide
theorem witness_unrecognized_record :
    secondRecord.phase = .loop ∧ readRecord secondRecord = some (0x5001, secondRecord.advance) ∧
      decode 0x5001 = .error (.unrecognized .op5) := by decide
theorem witness_SysJpCallDecodeToTheirAddress :
    (0x0E1#12).extractLsb' 0 8 ≠ 0xE0#8 ∧ (0x0E1#12).extractLsb' 0 8 ≠ 0xEE#8 ∧
      (0x0ED#12).extractLsb' 0 8 ≠ 0xE0#8 ∧ (0x0ED#12).extractLsb' 0 8 ≠ 0xEE#8 := by decide
theorem witness_SeAndSneRegistersDecodeOnNibbleZero : (0x1#4 : Nibble) ≠ 0x0#4 ∧ (0xF#4 : Nibble) ≠ 0x0#4 := by decide
theorem witness_OtherSelectorsOf8AndEAreUnrecognized :
    0x8#4 ∈ [0x8#4, 0x9#4, 0xA#4, 0xB#4, 0xC#4, 0xD#4, 0xF#4] ∧ 0xF#4 ∈ [0x8#4, 0x9#4, 0xA#4, 0xB#4, 0xC#4, 0xD#4, 0xF#4] ∧
      0x9D#8 ∉ [0x9E#8, 0xA1#8] ∧ 0xA2#8 ∉ [0x9E#8, 0xA1#8] := by decide
theorem witness_OtherSelectorBytesOfFAreUnrecognized :
    0x00#8 ∉ [0x07#8, 0x0A#8, 0x15#8, 0x18#8, 0x1E#8, 0x29#8, 0x33#8, 0x55#8, 0x65#8] ∧
      0xFF#8 ∉ [0x07#8, 0x0A#8, 0x15#8, 0x18#8, 0x1E#8, 0x29#8, 0x33#8, 0x55#8, 0x65#8] := by decide
theorem witness_IsUnrecognized_record_of_8_E_F :
    (readRecord (State.reset.withFetchWord 16 0x8008)).isSome = true ∧ (readRecord (State.reset.withFetchWord 16 0xE09D)).isSome = true ∧
      (readRecord (State.reset.withFetchWord 16 0xFFFF)).isSome = true ∧ (State.reset.withFetchWord 16 0xFFFF).phase = .loop := by decide
theorem witness_StepAnswersTheDecodeFunction :
    ∃ s s1 : State, ∃ w : Word, s.phase = .loop ∧ readRecord s = some (w, s1) := ⟨_, _, _, witness_recognized_record⟩
theorem witness_FieldOutputsAreWiresOfTheInput :
    ∃ s s1 : State, ∃ w : Word, s.phase = .loop ∧ readRecord s = some (w, s1) ∧ w = 0x5001 :=
  ⟨_, _, _, witness_unrecognized_record.1, witness_unrecognized_record.2.1, rfl⟩
theorem witness_TidOutputIsTheSelectedDemuxOutput :
    ∃ s s1 : State, ∃ w : Word, s.phase = .loop ∧ readRecord s = some (w, s1) := ⟨_, _, _, witness_recognized_record⟩
theorem witness_EachRecordPrintsOneLineAndCountsOne :
    ∃ s s1 : State, ∃ w : Word, s.phase = .loop ∧ readRecord s = some (w, s1) := ⟨_, _, _, witness_recognized_record⟩
theorem witness_SameWordSamePortsWhateverCameBefore :
    ∃ s s' s1 s1' : State, ∃ w : Word, s.phase = .loop ∧ s'.phase = .loop ∧ readRecord s = some (w, s1) ∧
      readRecord s' = some (w, s1') ∧ s.counter ≠ s'.counter :=
  ⟨loopState, loopState.withCounter 0, _, _, 0x1234, by decide, by decide, witness_recognized_record.2, rfl, by decide⟩
theorem witness_UnrecognizedWordPrintsPlaceholderAndRunGoesOn :
    ∃ s s1 : State, ∃ w : Word, ∃ e, s.phase = .loop ∧ readRecord s = some (w, s1) ∧ decode w = .error e :=
  ⟨_, _, _, _, witness_unrecognized_record⟩
theorem witness_TextDeterminesTheWord :
    ∃ (i j : Instr) (s t u : State), exec i s = .next t ∧ exec j s = .next u ∧ 3 ≤ t.ports.tid.toNat ∧ t.ports.tid.toNat ≤ 26 ∧
      3 ≤ u.ports.tid.toNat ∧ u.ports.tid.toNat ≤ 26 ∧ t.ports.text = u.ports.text :=
  ⟨.jp 0x234, .jp 0x234, State.reset, _, _, exec_eq _ _, exec_eq _ _, by decide, by decide, by decide, by decide, rfl⟩
theorem witness_RecordIsTwoBytesBigEndian :
    (loopState.readFails = false ∧ Memory.read loopState.stream 0 = some 0x12 ∧ Memory.read loopState.stream 1 = some 0x34) ∧
      Memory.read trailingByte.stream (trailingByte.pos + 1) = none ∧
      Memory.read trailingByte.advance.stream trailingByte.advance.pos = none ∧
      State.readFails { loopState with readFailsAt := some 1 } = true := by decide
theorem witness_StepRunsTheDecodedInstruction :
    (loopState.phase = .loop ∧ loopState.readFails = false ∧ Memory.read loopState.stream loopState.pos = some 0x12 ∧
      Memory.read loopState.stream (loopState.pos + 1) = some 0x34 ∧ decode (0x12#8 ++ 0x34#8) = .ok (.jp 0x234)) ∧
    (secondRecord.phase = .loop ∧ secondRecord.readFails = false ∧ Memory.read secondRecord.stream secondRecord.pos = some 0x50 ∧
      Memory.read secondRecord.stream (secondRecord.pos + 1) = some 0x01 ∧
      decode (0x50#8 ++ 0x01#8) = .error (.unrecognized .op5)) := by decide
theorem witness_PlacedTableWordIsRunNext : decodeTableWord 16 0xD120 = some (.drw 0x1 0x2 0x0) := by decide
theorem witness_EndOfStreamExitsZero :
    trailingByte.phase = .loop ∧ Memory.read trailingByte.stream (trailingByte.pos + 1) = none ∧
      (initCounter (State.driverContract [] 0x200)).phase = .loop ∧
      Memory.read (initCounter (State.driverContract [] 0x200)).stream 0 = none := by decide
theorem witness_ReadFailureEndsTheRunAsEndOfStream :
    State.phase { loopState with readFailsAt := some 1 } = .loop ∧
      State.readFailsAt { loopState with readFailsAt := some 1 } = some 1 ∧ 1 < loopState.pos + 2 := by decide
theorem witness_WrongArgumentCountIsAUsageError :
    State.reset.phase = .checkArgs ∧ State.reset.argv.length ≠ 1 ∧ (State.commandLine [] [['a'], ['b']] []).argv.length ≠ 1 ∧
      (State.commandLine [] [['a']] []).phase = .checkArgs ∧ (State.commandLine [] [['a']] []).argv.length = 1 := by decide
theorem witness_UnopenableFileExitsOne :
    ((State.commandLine [] [['a']] []).withPhase .openFile).phase = .openFile ∧
      ((State.commandLine [] [['a']] []).withPhase .openFile).argv = [['a']] ∧ findFile [] ['a'] = none := by decide

/-- One file, `a`, with one record. -/
def oneFile : List FileEntry := [⟨['a'], Memory.ofBytes [0x12, 0x34]⟩]

theorem witness_OpenedFileIsAcquiredAndCounterSetToEntry :
    (((State.commandLine [] [['a']] oneFile).withPhase .openFile).phase = .openFile ∧
      ((State.commandLine [] [['a']] oneFile).withPhase .openFile).argv = [['a']] ∧
      findFile oneFile ['a'] = some (Memory.ofBytes [0x12, 0x34])) ∧
    (State.driverContract [0x12, 0x34] 0x200).phase = .initCounter := by decide
theorem witness_CommandLineRunReachesTheLoopAtEntry200 :
    findFile oneFile ['a'] = some (Memory.ofBytes [0x12, 0x34]) := by decide
theorem witness_CommandLinePrintsTheListingFrom200 :
    findFile oneFile ['a'] = some (Memory.ofBytes [0x12, 0x34]) := by decide
theorem witness_EndedRunTakesNoStep : (exitRun loopState 0).phase = .exited 0 := rfl
theorem witness_NoStepFaultsOrRefusesBeforeTheEnd : ∀ code, loopState.phase ≠ .exited code := fun _ => nofun
theorem witness_InstructionFrame : ∃ t, exec (.fx33 0x4) loopState = .next t := ⟨_, exec_eq _ _⟩
theorem witness_StepNeverChangesInputsNorTheOpenStream :
    (∃ t, step trailingByte = .next t) ∧ loopState.phase ≠ .openFile ∧
      ∃ t, step ((State.commandLine [] [['a']] oneFile).withPhase .openFile) = .next t := ⟨⟨_, rfl⟩, nofun, ⟨_, rfl⟩⟩
theorem witness_StartedRunsSatisfyTheInvariant :
    ∀ f ∈ oneFile, Memory.wf f.contents = true ∧ Memory.isFile f.contents = true := by decide

/-- A run in its loop over one word, with what the invariants say of it. -/
def oneRecord : State := initCounter (State.driverContract [0x12, 0x34] 0x200)

theorem oneRecord_inv : oneRecord.Inv where
  files := ⟨by decide, by decide, fun _ h => nomatch h⟩
  framed := ⟨by decide, by decide, fun h => nomatch h⟩
  counted := fun _ => by decide
  held := ⟨fun _ => .inr rfl, fun _ => rfl⟩
  code := fun _ h => nomatch h
  ports := show Ports.ofZeroWord = Block.ports Config.fxText 0 from rfl

theorem witness_StepKeepsTheInvariant : oneRecord.Inv ∧ ∃ t, step oneRecord = .next t :=
  ⟨oneRecord_inv, ⟨_, rfl⟩⟩
theorem witness_StepKeepsPrintedEqualToListing :
    oneRecord.Inv ∧ oneRecord.PrintedIsListing ∧ ∃ t, step oneRecord = .next t :=
  ⟨oneRecord_inv, ⟨fun _ => ⟨rfl, rfl⟩, fun _ => ⟨rfl, rfl⟩⟩, ⟨_, rfl⟩⟩
theorem witness_ReadFailureListsTheReadablePrefix : 3 ≤ ([0x12, 0x34, 0x00, 0xE0] : List Byte).length := by decide
theorem witness_DecodeOfEncodeIsTheInstruction :
    (Instr.sys 0x123).wellFormed = true ∧ (Instr.drw 0xF 0x0 0xF).wellFormed = true := by decide
theorem witness_EncodeOfDecodeIsTheWord : decode 0x0AE0 = .ok (.cls 0xA) ∧ decode 0xEFA1 = .ok (.sknp 0xF) := by decide

end Sys2Proof.Tests
end

/-! PROOFS, 10_state: the decoder and R108's function of the word agree, and with that every step keeps the structural invariant
(O46), depends on the word alone in its ports (O20), and changes only what it should (O42, O40). -/

namespace Sys2Proof

/-! ### A word from its fields, some of them known (R77) -/

theorem append_addr_of_op {w : Word} {p : BitVec 4} (hop : opField w = p) : p ++ nnnField w = w :=
  hop ▸ (word_eq_addr w).symm

theorem append_regByte_of_op {w : Word} {p : BitVec 4} (hop : opField w = p) : p ++ xField w ++ kkField w = w :=
  hop ▸ (word_eq_regByte w).symm

theorem append_regByte_of_op_kk {w : Word} {p : BitVec 4} {k : Byte} (hop : opField w = p) (hkk : kkField w = k) :
    p ++ xField w ++ k = w :=
  hkk ▸ append_regByte_of_op hop

theorem append_regReg_of_op {w : Word} {p : BitVec 4} (hop : opField w = p) :
    p ++ xField w ++ yField w ++ nField w = w :=
  hop ▸ (word_eq_regReg w).symm

theorem append_regReg_of_op_n {w : Word} {p : BitVec 4} {n : Nibble} (hop : opField w = p) (hn : nField w = n) :
    p ++ xField w ++ yField w ++ n = w :=
  hn ▸ append_regReg_of_op hop

/-- The low byte of a word's address field is its byte field (R72, R73). -/
@[simp] theorem Addr.lowByte_nnnField (w : Word) : Addr.lowByte (nnnField w) = kkField w := by
  conv_rhs => rw [word_eq_addr w, kkField_addr]

/-! ### The decoder against the encoder and R108's case analysis -/

/-- A decode outcome is right for its word: an instruction is well formed and encodes to the word, and a rejected word is one
for which R108's case analysis selects no template. -/
def DecodeFits (w : Word) : Except Reject Instr → Prop
  | .ok i => i.wellFormed = true ∧ encode i = w
  | .error _ => Machine.Block.tidOf w = 0

section
variable {w : Word}

theorem decodeFits_op0 (hop : opField w = 0x0#4) : DecodeFits w (decodeOp0 w) := by
  unfold decodeOp0
  split
  next hkk => exact ⟨rfl, append_regByte_of_op_kk hop hkk⟩
  split
  next hkk => exact ⟨rfl, append_regByte_of_op_kk hop hkk⟩
  next hcls hret => exact ⟨by simp [Instr.wellFormed, hcls, hret], append_addr_of_op hop⟩

theorem decodeFits_op5 (hop : opField w = 0x5#4) : DecodeFits w (decodeOp5 w) := by
  unfold decodeOp5
  split
  next hn => exact ⟨rfl, append_regReg_of_op_n hop hn⟩
  next hn => simpa [DecodeFits, Machine.Block.tidOf, hop, ← BitVec.toNat_inj] using hn

theorem decodeFits_op8 (hop : opField w = 0x8#4) : DecodeFits w (decodeOp8 w) := by
  have fits {n : Nibble} (hn : (nField w).toNat = n.toNat) : 0x8#4 ++ xField w ++ yField w ++ n = w :=
    append_regReg_of_op_n hop (BitVec.eq_of_toNat_eq hn)
  unfold decodeOp8
  split
  case h_10 =>
    simp only [imp_false] at *
    have h7 : ¬ (nField w).toNat ≤ 7 := by omega
    simp [DecodeFits, Machine.Block.tidOf, hop, h7, ‹¬ (nField w).toNat = 14›]
  all_goals exact ⟨rfl, fits ‹_›⟩

theorem decodeFits_op9 (hop : opField w = 0x9#4) : DecodeFits w (decodeOp9 w) := by
  unfold decodeOp9
  split
  next hn => exact ⟨rfl, append_regReg_of_op_n hop hn⟩
  next hn => simpa [DecodeFits, Machine.Block.tidOf, hop, ← BitVec.toNat_inj] using hn

theorem decodeFits_opE (hop : opField w = 0xE#4) : DecodeFits w (decodeOpE w) := by
  unfold decodeOpE
  split
  next hkk => exact ⟨rfl, append_regByte_of_op_kk hop hkk⟩
  split
  next hkk => exact ⟨rfl, append_regByte_of_op_kk hop hkk⟩
  next hskp hsknp => simp [DecodeFits, Machine.Block.tidOf, hop, hskp, hsknp]

theorem decodeFits_opF (hop : opField w = 0xF#4) : DecodeFits w (decodeOpF w) := by
  have fits {k : Byte} (hkk : (kkField w).toNat = k.toNat) : 0xF#4 ++ xField w ++ k = w :=
    append_regByte_of_op_kk hop (BitVec.eq_of_toNat_eq hkk)
  unfold decodeOpF
  split
  case h_10 => simp_all [DecodeFits, Machine.Block.tidOf, Config.fxSel, ← BitVec.toNat_inj]
  all_goals exact ⟨rfl, fits ‹_›⟩

/-- Every decode outcome is right for its word. -/
theorem decodeFits_decode (w : Word) : DecodeFits w (decode w) := by
  have op {p : BitVec 4} (h : (opField w).toNat = p.toNat) : opField w = p := BitVec.eq_of_toNat_eq h
  unfold decode
  split
  next h => exact decodeFits_op0 (op h)
  next h => exact ⟨rfl, append_addr_of_op (op h)⟩
  next h => exact ⟨rfl, append_addr_of_op (op h)⟩
  next h => exact ⟨rfl, append_regByte_of_op (op h)⟩
  next h => exact ⟨rfl, append_regByte_of_op (op h)⟩
  next h => exact decodeFits_op5 (op h)
  next h => exact ⟨rfl, append_regByte_of_op (op h)⟩
  next h => exact ⟨rfl, append_regByte_of_op (op h)⟩
  next h => exact decodeFits_op8 (op h)
  next h => exact decodeFits_op9 (op h)
  next h => exact ⟨rfl, append_addr_of_op (op h)⟩
  next h => exact ⟨rfl, append_addr_of_op (op h)⟩
  next h => exact ⟨rfl, append_regByte_of_op (op h)⟩
  next h => exact ⟨rfl, append_regReg_of_op (op h)⟩
  next h => exact decodeFits_opE (op h)
  next =>
    have hlt := (opField w).isLt
    simp only [imp_false] at *
    exact decodeFits_opF (op (show (opField w).toNat = 15 by omega))

/-- What decodes is well formed, and its word is the word decoded (R79, R85). -/
theorem wellFormed_and_encode_of_decode_ok {i : Instr} (h : decode w = .ok i) : i.wellFormed = true ∧ encode i = w :=
  show DecodeFits w (.ok i) from h ▸ decodeFits_decode w

/-- R108's case analysis selects no template for a word that the decoder rejects (R107). -/
theorem tidOf_of_decode_error {e : Reject} (h : decode w = .error e) : Machine.Block.tidOf w = 0 :=
  show DecodeFits w (.error e) from h ▸ decodeFits_decode w

end

end Sys2Proof

namespace Sys2Proof.Machine

/-! ### The block, on the word of an instruction and on a rejected word (R105 to R108) -/

namespace Block

/-- The word of a well-formed instruction selects the instruction's own template (R79, R108). -/
theorem tidOf_encode {i : Instr} (h : i.wellFormed = true) : tidOf (encode i) = i.templateId := by
  open Laws.EncodeSelectsTemplate in
  cases i with
  | cls x => exact cls x h
  | ret x => exact ret x h
  | sys nnn => exact sys nnn h
  | jp nnn => exact jp nnn h
  | call nnn => exact call nnn h
  | seByte x kk => exact seByte x kk h
  | sneByte x kk => exact sneByte x kk h
  | seReg x y => exact seReg x y h
  | ldByte x kk => exact ldByte x kk h
  | addByte x kk => exact addByte x kk h
  | ldReg x y => exact ldReg x y h
  | orReg x y => exact orReg x y h
  | andReg x y => exact andReg x y h
  | xorReg x y => exact xorReg x y h
  | addReg x y => exact addReg x y h
  | subReg x y => exact subReg x y h
  | shrReg x y => exact shrReg x y h
  | subnReg x y => exact subnReg x y h
  | shlReg x y => exact shlReg x y h
  | sneReg x y => exact sneReg x y h
  | ldI nnn => exact ldI nnn h
  | jpV0 nnn => exact jpV0 nnn h
  | rnd x kk => exact rnd x kk h
  | drw x y n => exact drw x y n h
  | skp x => exact skp x h
  | sknp x => exact sknp x h
  | fx07 x => exact fx07 x h
  | fx0A x => exact fx0A x h
  | fx15 x => exact fx15 x h
  | fx18 x => exact fx18 x h
  | fx1E x => exact fx1E x h
  | fx29 x => exact fx29 x h
  | fx33 x => exact fx33 x h
  | fx55 x => exact fx55 x h
  | fx65 x => exact fx65 x h

/-- The operand routing and the mnemonics of R106 give an instruction's own text (R115, R219). -/
theorem renderTemplate_encode (i : Instr) : renderTemplate Config.fxText i.templateId (encode i) = textOf i := by
  cases i <;> simp [renderTemplate, operands, mnemonic, Instr.templateId, encode, textOf]

/-- R108's function on a word that decodes: Recognized, with the instruction's template id and text. -/
theorem decode_of_decode_ok {w : Word} {i : Instr} (h : Sys2Proof.decode w = .ok i) :
    decode Config.fxText w = .recognized (BitVec.ofNat 6 i.templateId) (textOf i) := by
  obtain ⟨hwf, rfl⟩ := wellFormed_and_encode_of_decode_ok h
  have hne : i.templateId ≠ 0 := Nat.ne_of_gt (templateId_bounds i).1
  simp [decode, tidOf_encode hwf, hne, renderTemplate_encode]

/-- R108's function on a word that the decoder rejects: Unrecognized. -/
theorem decode_of_decode_error {w : Word} {e : Reject} (h : Sys2Proof.decode w = .error e) :
    decode Config.fxText w = .unrecognized := by
  simp [decode, tidOf_of_decode_error h]

theorem ports_of_decode_ok {w : Word} {i : Instr} (h : Sys2Proof.decode w = .ok i) :
    ports Config.fxText w = Ports.drive (encode i) (BitVec.ofNat 6 i.templateId) (textOf i) := by
  simp [ports, decode_of_decode_ok h, (wellFormed_and_encode_of_decode_ok h).2]

theorem ports_of_decode_error {w : Word} {e : Reject} (h : Sys2Proof.decode w = .error e) :
    ports Config.fxText w = Ports.unrecognized w := by
  simp [ports, decode_of_decode_error h]

/-- The block's input is the word driven on it. -/
@[simp] theorem ports_insn (fx : Byte → RegIdx → Text) (w : Word) : (ports fx w).insn = w := by
  unfold ports; split <;> rfl

end Block

/-! ### Steps in the loop and after the end -/

theorem step_of_loop {s : State} (h : s.phase = .loop) : step s = loopStep s := by
  simp [step, h]

theorem step_of_exited {s : State} {code : Nat} (h : s.phase = .exited code) : step s = .fault .runEnded := by
  simp [step, h]

/-- A record read in the loop: the ports are R108's function of its word, and what that result shows is printed (R49, R108). -/
theorem step_of_readRecord {s s1 : State} {w : Word} (hp : s.phase = .loop) (hr : readRecord s = some (w, s1)) :
    step s = .next (finishRecord s.advance (Block.ports Config.fxText w)
      (Block.shown (Block.decode Config.fxText w))) := by
  obtain ⟨-, b0, b1, -, -, -, rfl⟩ := readRecord_eq_some.mp hr
  rw [step_of_loop hp]
  rcases loopStep_cases s with ⟨hr', -⟩ | ⟨w', i, hr', hd, hl⟩ | ⟨w', e, hr', hd, hl⟩
  · simp [hr] at hr'
  · obtain rfl : w = w' := by simpa [hr] using hr'
    rw [hl, exec_eq, recognized, Block.ports_of_decode_ok hd, Block.decode_of_decode_ok hd, Block.shown]
  · obtain rfl : w = w' := by simpa [hr] using hr'
    rw [hl, unrecognized, Block.ports_of_decode_error hd, Block.decode_of_decode_error hd, Block.shown]

/-! ### What a finished record leaves unchanged -/

theorem State.sameBut_finishRecord (s : State) (p : Ports) (shown : Text) : s.SameBut (finishRecord s p shown) := by
  simp [State.SameBut]

/-! ### The structural invariant, one operation at a time -/

/-- A byte that a file has stands below the file's length (R41). -/
theorem Memory.lt_length_of_read {m : Memory} {a : Nat} {v : Byte} (hf : Memory.isFile m = true)
    (h : Memory.read m a = some v) : a < m.length := by
  rw [Memory.read_of_isFile hf] at h
  simpa using (List.getElem?_eq_some_iff.mp h).1

namespace State.Inv
variable {s : State}

/-- Printing touches nothing that the invariant speaks of. -/
theorem print (h : s.Inv) (o : OutStream) (t : Text) : (s.print o t).Inv := by
  cases o <;> exact ⟨h.files, h.framed, h.counted, h.held, h.code, h.ports⟩

/-- An exit with code 1, and one with code 0 where the counter labels the next record, keep the invariant (R250, R251). -/
theorem exitRun {code : Nat} (h : s.Inv) (hcode : code = 0 ∧ s.counter = s.entry + s.pos / 2 ∨ code = 1) :
    (exitRun s code).Inv := by
  obtain ⟨heven, hle, -⟩ := h.framed
  exact {
    files := h.files
    framed := ⟨heven, hle, by simp⟩
    counted := fun hend => by
      have h0 : code = 0 := by simpa using hend
      exact (hcode.resolve_right (by omega)).2
    held := by simp [StreamHeldInRun]
    code := by simpa [ExitCodeIsLegal] using hcode.imp_left And.left
    ports := h.ports }

/-- The argument check (R263 item 1): nothing is held before it, and an exit there has code 1. -/
theorem checkArgs (h : s.Inv) (hp : s.phase = .checkArgs) : (checkArgs s).Inv := by
  rcases checkArgs_cases s with ⟨path, -, heq⟩ | ⟨-, heq⟩ <;> rw [heq]
  · obtain ⟨heven, hle, -⟩ := h.framed
    have hheld : s.streamHeld = false := by simpa [StreamHeldInRun, hp] using h.held
    exact {
      files := h.files
      framed := ⟨heven, hle, by simp⟩
      counted := by simp [CounterLabelsRecord]
      held := by simp [StreamHeldInRun, hheld]
      code := by simp [ExitCodeIsLegal]
      ports := h.ports }
  · exact (h.print _ _).exitRun (.inr rfl)

/-- Opening the file (R263 item 2): the stream acquired is one of the files, at position 0. -/
theorem openFile (h : s.Inv) : (openFile s).Inv := by
  rcases openFile_cases s with ⟨m, hm, heq⟩ | ⟨-, heq⟩ <;> rw [heq]
  · obtain ⟨f, hf, -, rfl⟩ := mem_of_findFile hm
    obtain ⟨-, -, hdisk⟩ := h.files
    exact {
      files := ⟨(hdisk f hf).1, (hdisk f hf).2, hdisk⟩
      framed := by simp [PositionIsFramed]
      counted := by simp [CounterLabelsRecord]
      held := by simp [StreamHeldInRun]
      code := by simp [ExitCodeIsLegal]
      ports := h.ports }
  · exact (h.print _ _).exitRun (.inr rfl)

/-- Setting the counter (R263 item 3): the position is still 0, so ENTRY labels the first record (R261). -/
theorem initCounter (h : s.Inv) (hp : s.phase = .initCounter) : (initCounter s).Inv := by
  obtain ⟨heven, hle, hzero⟩ := h.framed
  exact {
    files := h.files
    framed := ⟨heven, hle, by simp⟩
    counted := by simp [CounterLabelsRecord, hzero hp]
    held := by simpa [StreamHeldInRun, hp] using h.held
    code := by simp [ExitCodeIsLegal]
    ports := h.ports }

/-- A record read in the loop: both its bytes are inside the stream, and the counter goes up with the position (R29, R42). -/
theorem finishRecord {w : Word} {p : Ports} (h : s.Inv) (hp : s.phase = .loop)
    (hr : readRecord s = some (w, s.advance)) (hports : p = Block.ports Config.fxText w) (shown : Text) :
    (finishRecord s.advance p shown).Inv := by
  obtain ⟨heven, -, -⟩ := h.framed
  obtain ⟨-, hfile, -⟩ := h.files
  obtain ⟨-, b0, b1, -, h1, -, -⟩ := readRecord_eq_some.mp hr
  have hin : s.pos + 1 < s.stream.length := Memory.lt_length_of_read hfile h1
  have hcount : s.counter = s.entry + s.pos / 2 := h.counted (.inl hp)
  exact {
    files := h.files
    framed := ⟨by simpa using heven, hin, by simp [hp]⟩
    counted := fun _ => by simp [hcount]; omega
    held := h.held
    code := h.code
    ports := by simp [PortsAreCombinational, hports] }

end State.Inv

/-! ### The obligations of 10_state -/

/-- Settles O46: each action before the loop, the end of the stream and each record keeps the invariant; for a record, the ports
are R108's function of its word because the decoder and that function agree. -/
theorem stepKeepsTheInvariant : Obligations.StepKeepsTheInvariant := by
  intro s t hs hstep
  rcases step_cases hstep with ⟨hp, rfl⟩ | ⟨-, rfl⟩ | ⟨hp, rfl⟩ | ⟨hp, -, rfl⟩ | ⟨hp, w, i, hr, hd, rfl⟩ |
    ⟨hp, w, e, hr, hd, rfl⟩
  · exact hs.checkArgs hp
  · exact hs.openFile
  · exact hs.initCounter hp
  · exact hs.exitRun (.inl ⟨rfl, hs.counted (.inl hp)⟩)
  · exact hs.finishRecord hp hr (Block.ports_of_decode_ok hd).symm _
  · exact hs.finishRecord hp hr (Block.ports_of_decode_error hd).symm _

/-- Settles O20: both steps end with the ports at R108's function of the word read, which takes nothing else. -/
theorem sameWordSamePortsWhateverCameBefore : Obligations.SameWordSamePortsWhateverCameBefore := by
  intro s s' s1 s1' w hp hp' hr hr'
  exact ⟨_, _, step_of_readRecord hp hr, step_of_readRecord hp' hr', rfl⟩

/-- Settles O42: every instruction's outcome is a finished record of its own word. -/
theorem instructionFrame : Obligations.InstructionFrame := by
  intro i s t h
  obtain rfl : _ = t := by simpa [exec_eq, recognized] using h
  exact ⟨s.sameBut_finishRecord _ _, rfl, rfl, rfl, rfl⟩

/-- Settles O40: a run that has ended takes no step (log 7). -/
theorem endedRunTakesNoStep : Obligations.EndedRunTakesNoStep :=
  fun _ _ => step_of_exited

end Sys2Proof.Machine

/-! PROOFS, 20_memory: the columns of a line (O27, O28), the records of the stream (O29 to O31, O33 to O35), what no step changes
(O43), and the text that a whole run prints: the listing of the records read, at every step (O47) and at the end (O48 to O50). -/

namespace Sys2Proof.Machine

/-! ### The columns of a line (R51) -/

/-- Leading zeros do not change the number that digits denote. -/
theorem valueOf_replicate_zero_append (base k : Nat) (t : Text) :
    valueOf base (List.replicate k '0' ++ t) = valueOf base t := by
  induction k with
  | zero => rfl
  | succ k ih =>
    rw [List.replicate_succ, List.cons_append, ← ih]
    simp [valueOf, digitValue]

/-- The number 0 has one digit. -/
@[simp] theorem digits_zero : digits 16 0 = ['0'] := rfl

/-- `hexA(c)` has at least 3 digits. -/
theorem three_le_length_hexA (c : Nat) : 3 ≤ (hexA c).length := by
  simp only [hexA, List.length_append, List.length_replicate]
  omega

/-- `hexA(c)` holds uppercase hexadecimal digits only. -/
theorem isUpperHex_of_mem_hexA {c : Nat} {ch : Char} (h : ch ∈ hexA c) : isUpperHex ch = true := by
  obtain ⟨-, hdigit, -, -⟩ := digits_spec (base := 16) (by decide) (by decide) c
  rcases List.mem_append.mp h with h | h
  · obtain rfl := List.eq_of_mem_replicate h
    rfl
  · obtain ⟨d, hd, rfl⟩ := hdigit ch h
    exact (digitChar_spec hd).1

/-- `hexA(c)` denotes `c`, whatever `c` is (D8). -/
theorem valueOf_hexA (c : Nat) : valueOf 16 (hexA c) = c := by
  obtain ⟨-, -, hval, -⟩ := digits_spec (base := 16) (by decide) (by decide) c
  exact (valueOf_replicate_zero_append _ _ _).trans hval

/-- Above 3 digits nothing is padded, and the number's own digits have no leading zero. -/
theorem head_hexA_ne_zero {c : Nat} (h : 3 < (hexA c).length) : (hexA c).head? ≠ some '0' := by
  obtain ⟨-, -, -, hhead⟩ := digits_spec (base := 16) (by decide) (by decide) c
  have hlen : 3 < (digits 16 c).length := by
    simp only [hexA, List.length_append, List.length_replicate] at h
    omega
  have hc : c ≠ 0 := by rintro rfl; simp at hlen
  simpa [hexA, show 3 - (digits 16 c).length = 0 by omega] using hhead hc

/-! ### Records (R43 to R45) -/

/-- A record's word is its first byte times 256 plus its second byte (R43). -/
theorem toNat_wordOfBytes (b0 b1 : Byte) : (wordOfBytes b0 b1).toNat = b0.toNat * 256 + b1.toNat := by
  rw [wordOfBytes, BitVec.toNat_append, ← Nat.shiftLeft_add_eq_or_of_lt b1.isLt, Nat.shiftLeft_eq]

/-- An offset of the record that the medium fails to read makes the read fail (R45). -/
theorem State.readFails_of_readFailsAt {s : State} {f : Nat} (h : s.readFailsAt = some f) (hf : f < s.pos + 2) :
    s.readFails = true := by
  simp [State.readFails, h, hf]

/-- The record of two bytes that stand at the position, with the state moved past it. -/
theorem readRecord_of_bytes {s : State} {b0 b1 : Byte} (hf : s.readFails = false)
    (h0 : Memory.read s.stream s.pos = some b0) (h1 : Memory.read s.stream (s.pos + 1) = some b1) :
    readRecord s = some (wordOfBytes b0 b1, s.advance) :=
  readRecord_eq_some.mpr ⟨hf, b0, b1, h0, h1, rfl, rfl⟩

/-! ### A step of the loop, by what is read -/

section
variable {s s1 : State} {w : Word}

theorem step_of_no_record (hp : s.phase = .loop) (hr : readRecord s = none) : step s = .next (exitRun s 0) := by
  simp [step_of_loop hp, loopStep, hr]

theorem step_of_decode_ok {i : Instr} (hp : s.phase = .loop) (hr : readRecord s = some (w, s1)) (hd : decode w = .ok i) :
    step s = exec i s1 := by
  simp [step_of_loop hp, loopStep, hr, hd]

theorem step_of_decode_error {e : Reject} (hp : s.phase = .loop) (hr : readRecord s = some (w, s1))
    (hd : decode w = .error e) : step s = unrecognized w s1 := by
  simp [step_of_loop hp, loopStep, hr, hd]

end

/-- Every step that answers a next state is one of these, the records of the loop in the terms of R108's function of the word. -/
theorem step_cases_block {s t : State} (h : step s = .next t) :
    (s.phase = .checkArgs ∧ t = checkArgs s) ∨
    (s.phase = .openFile ∧ t = openFile s) ∨
    (s.phase = .initCounter ∧ t = initCounter s) ∨
    (s.phase = .loop ∧ t = exitRun s 0) ∨
    (s.phase = .loop ∧ ∃ w, readRecord s = some (w, s.advance) ∧
      t = finishRecord s.advance (Block.ports Config.fxText w) (Block.shown (Block.decode Config.fxText w))) := by
  have record {w : Word} (hp : s.phase = .loop) (hr : readRecord s = some (w, s.advance)) :
      t = finishRecord s.advance (Block.ports Config.fxText w) (Block.shown (Block.decode Config.fxText w)) := by
    simpa [h] using step_of_readRecord hp hr
  rcases step_cases h with hc | ho | hi | ⟨hp, -, ht⟩ | ⟨hp, w, -, hr, -, -⟩ | ⟨hp, w, -, hr, -, -⟩
  · exact .inl hc
  · exact .inr (.inl ho)
  · exact .inr (.inr (.inl hi))
  · exact .inr (.inr (.inr (.inl ⟨hp, ht⟩)))
  · exact .inr (.inr (.inr (.inr ⟨hp, w, hr, record hp hr⟩)))
  · exact .inr (.inr (.inr (.inr ⟨hp, w, hr, record hp hr⟩)))

/-! ### The word that a table word stands for -/

/-- What the decoder reads from a table word is what it reads from the word of its bits. -/
theorem decodeTableWord_eq_some {nbits w : Nat} {i : Instr} :
    decodeTableWord nbits w = some i ↔ decode (BitVec.ofNat 16 (w % 2 ^ nbits)) = .ok i := by
  simp only [decodeTableWord, tableBytes, decodeBytes, wordOfBytes_high_low]
  cases decode (BitVec.ofNat 16 (w % 2 ^ nbits)) <;> simp

/-! ### The listing of a stream, split at a record's start (R49, R50) -/

/-- The listing of whole records and what follows them: the second part is numbered on from the first. -/
theorem Block.listing_append (fx : Byte → RegIdx → Text) (c : Nat) {xs : List Byte} (hx : xs.length % 2 = 0)
    (ys : List Byte) :
    Block.listing fx c (xs ++ ys) = Block.listing fx c xs ++ Block.listing fx (c + xs.length / 2) ys := by
  induction xs using List.twoStepInduction generalizing c with
  | nil => simp [Block.listing]
  | singleton b => simp at hx
  | cons_cons b0 b1 rest ih _ =>
    have hrest : rest.length % 2 = 0 := by simpa [Nat.add_assoc] using hx
    have hnum : c + 1 + rest.length / 2 = c + (b0 :: b1 :: rest).length / 2 := by
      simp only [List.length_cons]; omega
    rw [List.cons_append, List.cons_append, Block.listing, Block.listing, ih _ hrest, hnum, List.append_assoc]

/-- Fewer than two bytes list nothing: a trailing byte is ignored (R44). -/
theorem Block.listing_of_short (fx : Byte → RegIdx → Text) (c : Nat) {bytes : List Byte} (h : bytes.length < 2) :
    Block.listing fx c bytes = [] := by
  match bytes, h with
  | [], _ => rfl
  | [_], _ => rfl

/-- The bytes of a stream up to the end of the record at `pos`. -/
theorem take_record {bytes : List Byte} {pos : Nat} {b0 b1 : Byte} (h0 : bytes[pos]? = some b0)
    (h1 : bytes[pos + 1]? = some b1) : bytes.take (pos + 2) = bytes.take pos ++ [b0, b1] := by
  rw [List.take_add_one, List.take_add_one, h0, h1]
  simp

/-! ### The printed text, one operation at a time (R50) -/

namespace State.PrintedIsListing
variable {s : State}

/-- An exit with code 1 leaves nothing to say of the listing. -/
theorem exitRun_one (s : State) : (exitRun s 1).PrintedIsListing := by
  simp [PrintedIsListing]

theorem checkArgs (h : s.PrintedIsListing) (hp : s.phase = .checkArgs) : (checkArgs s).PrintedIsListing := by
  rcases checkArgs_cases s with ⟨path, -, heq⟩ | ⟨-, heq⟩ <;> rw [heq]
  · simpa [PrintedIsListing] using h.1 (.inl hp)
  · exact exitRun_one _

theorem openFile (h : s.PrintedIsListing) (hp : s.phase = .openFile) : (openFile s).PrintedIsListing := by
  rcases openFile_cases s with ⟨m, -, heq⟩ | ⟨-, heq⟩ <;> rw [heq]
  · simpa [PrintedIsListing] using h.1 (.inr (.inl hp))
  · exact exitRun_one _

/-- Entering the loop at position 0: no record is read, and nothing is printed. -/
theorem initCounter (h : s.PrintedIsListing) (hp : s.phase = .initCounter) (hpos : s.pos = 0) :
    (initCounter s).PrintedIsListing := by
  simpa [PrintedIsListing, hpos, Block.listing] using h.1 (.inr (.inr hp))

/-- The end of the stream prints nothing, and reads no record. -/
theorem exitRun_zero (h : s.PrintedIsListing) (hp : s.phase = .loop) : (exitRun s 0).PrintedIsListing := by
  simpa [PrintedIsListing, streamBytes] using h.2 (.inl hp)

/-- A record adds its own line to the listing of the records before it, numbered with the counter. -/
theorem finishRecord {w : Word} (h : s.PrintedIsListing) (hinv : s.Inv) (hp : s.phase = .loop)
    (hr : readRecord s = some (w, s.advance)) :
    (finishRecord s.advance (Block.ports Config.fxText w)
      (Block.shown (Block.decode Config.fxText w))).PrintedIsListing := by
  obtain ⟨-, b0, b1, h0, h1, rfl, -⟩ := readRecord_eq_some.mp hr
  obtain ⟨-, hfile, -⟩ := hinv.files
  obtain ⟨heven, hle, -⟩ := hinv.framed
  obtain ⟨hout, herr⟩ := h.2 (.inl hp)
  have hcount : s.counter = s.entry + s.pos / 2 := hinv.counted (.inl hp)
  have hlen : (s.streamBytes.take s.pos).length = s.pos := by simpa [streamBytes] using hle
  have htake : s.streamBytes.take (s.pos + 2) = s.streamBytes.take s.pos ++ [b0, b1] :=
    take_record ((Memory.read_of_isFile hfile _).symm.trans h0) ((Memory.read_of_isFile hfile _).symm.trans h1)
  refine ⟨by simp [hp], fun _ => ⟨?_, herr⟩⟩
  calc s.stdout ++ listingLine s.counter (Block.ports Config.fxText (wordOfBytes b0 b1)).insn
          (Block.shown (Block.decode Config.fxText (wordOfBytes b0 b1)))
      = Block.listing Config.fxText s.entry (s.streamBytes.take s.pos) ++
          Block.listing Config.fxText (s.entry + s.pos / 2) [b0, b1] := by
        simp [hout, hcount, Block.listing]
    _ = Block.listing Config.fxText s.entry (s.streamBytes.take (s.pos + 2)) := by
        rw [htake, Block.listing_append _ _ (by rw [hlen]; exact heven), hlen]

end State.PrintedIsListing

/-! ### Whole runs -/

/-- A run of one step more is the run from the step's next state. -/
theorem run_succ_of_step {s t : State} (h : step s = .next t) (k : Nat) : core.run (k + 1) s = core.run k t := by
  have hcore : core.step s = .next t := h
  simp only [Host.Core.run, hcore]

/-- The byte at an offset of the open stream, if the medium reads that far (R44, R45). -/
def State.readableByte (s : State) (a : Nat) : Option Byte :=
  if s.readFailsAt.any (· ≤ a) then none else Memory.read s.stream a

/-- The bytes that can still be read from the position on are exactly these. -/
def State.Ahead (s : State) (bytes : List Byte) : Prop :=
  ∀ i, s.readableByte (s.pos + i) = bytes[i]?

/-- Where the medium reads the whole record, its bytes are the stream's; where it does not, the second one is missing (R45). -/
theorem State.readableByte_cases (s : State) :
    (s.readFails = false ∧ s.readableByte s.pos = Memory.read s.stream s.pos ∧
      s.readableByte (s.pos + 1) = Memory.read s.stream (s.pos + 1)) ∨
    (s.readFails = true ∧ s.readableByte (s.pos + 1) = none) := by
  unfold State.readFails State.readableByte
  cases s.readFailsAt with
  | none => exact .inl ⟨rfl, rfl, rfl⟩
  | some f =>
    by_cases hf : f < s.pos + 2
    · exact .inr ⟨by simpa using hf, by simp [show f ≤ s.pos + 1 by omega]⟩
    · exact .inl ⟨by simpa using hf, by simp [show ¬ f ≤ s.pos by omega], by simp [show ¬ f ≤ s.pos + 1 by omega]⟩

/-- Two readable bytes at the position are the record read. -/
theorem readRecord_of_readableByte {s : State} {b0 b1 : Byte} (h0 : s.readableByte s.pos = some b0)
    (h1 : s.readableByte (s.pos + 1) = some b1) : readRecord s = some (wordOfBytes b0 b1, s.advance) := by
  rcases s.readableByte_cases with ⟨hf, hpos, hnext⟩ | ⟨-, hnext⟩
  · exact readRecord_of_bytes hf (hpos.symm.trans h0) (hnext.symm.trans h1)
  · simp [hnext] at h1

/-- Without a readable second byte no record is read. -/
theorem readRecord_of_readableByte_none {s : State} (h : s.readableByte (s.pos + 1) = none) : readRecord s = none := by
  rw [readRecord_eq_none]
  rcases s.readableByte_cases with ⟨-, -, hnext⟩ | ⟨hf, -⟩
  · exact .inr (.inr (hnext.symm.trans h))
  · exact .inl hf

namespace State.Ahead
variable {s : State} {bytes : List Byte}

/-- At the start of a sequence that the medium reads whole, all of it is ahead. -/
theorem of_ofBytes (hs : s.stream = Memory.ofBytes bytes) (hpos : s.pos = 0) (hf : s.readFailsAt = none) :
    s.Ahead bytes := by
  simp [Ahead, readableByte, hs, hpos, hf]

/-- At the start of a sequence that the medium fails to read at `f`, its first `f` bytes are ahead. -/
theorem of_ofBytes_failing {f : Nat} (hs : s.stream = Memory.ofBytes bytes) (hpos : s.pos = 0)
    (hf : s.readFailsAt = some f) : s.Ahead (bytes.take f) := by
  intro i
  simp only [readableByte, hs, hpos, hf, Memory.read_ofBytes, List.getElem?_take, Option.any_some, decide_eq_true_eq,
    Nat.zero_add]
  by_cases hi : i < f
  · simp [hi, Nat.not_le.mpr hi]
  · simp [hi, Nat.not_lt.mp hi]

/-- Two bytes ahead are the next record. -/
theorem readRecord_eq_some {b0 b1 : Byte} (h : s.Ahead (b0 :: b1 :: bytes)) :
    readRecord s = some (wordOfBytes b0 b1, s.advance) :=
  readRecord_of_readableByte (h 0) (h 1)

/-- Fewer than two bytes ahead are no record (R44). -/
theorem readRecord_eq_none (h : s.Ahead bytes) (hlen : bytes.length < 2) : readRecord s = none :=
  readRecord_of_readableByte_none ((h 1).trans (List.getElem?_eq_none (by omega)))

/-- After a record the bytes behind it are ahead. -/
theorem finishRecord {b0 b1 : Byte} (h : s.Ahead (b0 :: b1 :: bytes)) (p : Ports) (shown : Text) :
    (finishRecord s.advance p shown).Ahead bytes := by
  intro i
  have hnext : s.readableByte (s.pos + (i + 2)) = bytes[i]? := h (i + 2)
  rwa [show s.pos + (i + 2) = s.pos + 2 + i by omega] at hnext

end State.Ahead

/-- What a run of the loop ends in: exit code 0 with the stream released, one line printed and one count made for each complete
record of `bytes` (R44, R49, R250). -/
def State.EndsWithListing (s : State) (bytes : List Byte) (t : State) : Prop :=
  t.phase = .exited 0 ∧ t.streamHeld = false ∧ t.counter = s.counter + bytes.length / 2 ∧ t.stderr = s.stderr ∧
    t.stdout = s.stdout ++ Block.listing Config.fxText s.counter bytes

/-- With fewer than two bytes ahead one step ends the run. -/
theorem run_loop_of_short {s : State} {bytes : List Byte} (hp : s.phase = .loop) (h : s.Ahead bytes)
    (hlen : bytes.length < 2) :
    ∃ t, core.run (bytes.length / 2 + 1) s = .next t ∧ s.EndsWithListing bytes t := by
  have hrecords : bytes.length / 2 = 0 := Nat.div_eq_of_lt hlen
  refine ⟨exitRun s 0, ?_, by simp [State.EndsWithListing, Block.listing_of_short, hlen, hrecords]⟩
  rw [hrecords, run_succ_of_step (step_of_no_record hp (h.readRecord_eq_none hlen))]
  rfl

/-- The loop prints the listing of the bytes ahead, record by record, and ends after the last complete one (R49, R50). -/
theorem run_loop {s : State} {bytes : List Byte} (hp : s.phase = .loop) (h : s.Ahead bytes) :
    ∃ t, core.run (bytes.length / 2 + 1) s = .next t ∧ s.EndsWithListing bytes t := by
  induction bytes using List.twoStepInduction generalizing s with
  | nil => exact run_loop_of_short hp h Nat.two_pos
  | singleton b => exact run_loop_of_short hp h Nat.one_lt_two
  | cons_cons b0 b1 rest ih _ =>
    have hstep := step_of_readRecord hp h.readRecord_eq_some
    have hlen : (b0 :: b1 :: rest).length / 2 = rest.length / 2 + 1 := by
      simp only [List.length_cons]; omega
    obtain ⟨t, hrun, hphase, hheld, hcount, herr, hout⟩ := ih (by simpa using hp) (h.finishRecord _ _)
    refine ⟨t, ?_, hphase, hheld, ?_, herr, ?_⟩
    · rw [hlen, run_succ_of_step hstep, hrun]
    · rw [hcount, hlen, finishRecord_counter, State.advance_counter]; omega
    · rw [hout]; simp [Block.listing]

/-- From the setting of the counter on (R263 item 3): the listing is numbered from ENTRY. -/
theorem run_initCounter {s : State} {bytes : List Byte} (hp : s.phase = .initCounter) (h : s.Ahead bytes) :
    ∃ t, core.run (bytes.length / 2 + 2) s = .next t ∧ (initCounter s).EndsWithListing bytes t := by
  have hstep : step s = .next (initCounter s) := by simp [step, hp]
  rw [run_succ_of_step hstep]
  exact run_loop rfl h

/-- A file that is found is acquired, and the counter is set next (R263 item 2). -/
theorem openFile_of_found {s : State} {m : Memory} (h : findFile s.disk s.path = some m) :
    openFile s = (s.acquire m).withPhase .initCounter := by
  simp [openFile, h]

/-- A command line with a file that can be opened is, two steps later, at the setting of the counter, the file's bytes open at
offset 0 (R263 items 1 and 2). -/
theorem run_commandLine {disk : List FileEntry} {path : Text} {m : Memory} (hm : findFile disk path = some m)
    (prog : Text) (k : Nat) :
    core.run (k + 2) (State.commandLine prog [path] disk) =
      core.run k (((State.commandLine prog [path] disk).acquire m).withPhase .initCounter) := by
  have hcheck : step (State.commandLine prog [path] disk) =
      .next ((State.commandLine prog [path] disk).withPhase .openFile) := rfl
  have hopen : step ((State.commandLine prog [path] disk).withPhase .openFile) =
      .next (((State.commandLine prog [path] disk).acquire m).withPhase .initCounter) :=
    congrArg Host.Outcome.next (openFile_of_found hm)
  rw [run_succ_of_step hcheck, run_succ_of_step hopen]

/-! ### The obligations of 20_memory -/

/-- Settles O47: each action before the loop prints nothing or ends with exit code 1; the end of the stream prints nothing; a
record adds its own line to the listing. -/
theorem stepKeepsPrintedEqualToListing : Obligations.StepKeepsPrintedEqualToListing := by
  intro s t hinv hs hstep
  obtain ⟨-, -, hzero⟩ := hinv.framed
  rcases step_cases_block hstep with ⟨hp, rfl⟩ | ⟨hp, rfl⟩ | ⟨hp, rfl⟩ | ⟨hp, rfl⟩ | ⟨hp, w, hr, rfl⟩
  · exact hs.checkArgs hp
  · exact hs.openFile hp
  · exact hs.initCounter hp (hzero hp)
  · exact hs.exitRun_zero hp
  · exact hs.finishRecord hinv hp hr

/-- Settles O27: the digits of the counter, padded to 3. -/
theorem addressColumnIsNeverTruncated : Obligations.AddressColumnIsNeverTruncated :=
  fun c => ⟨three_le_length_hexA c, fun _ => isUpperHex_of_mem_hexA, valueOf_hexA c, head_hexA_ne_zero⟩

/-- Settles O43: only the opening sets the stream, only a record moves the position, and every print is at the end. -/
theorem stepNeverChangesInputsNorTheOpenStream : Obligations.StepNeverChangesInputsNorTheOpenStream := by
  intro s t hstep
  rcases step_cases_block hstep with ⟨hp, rfl⟩ | ⟨hp, rfl⟩ | ⟨hp, rfl⟩ | ⟨hp, rfl⟩ | ⟨hp, w, hr, rfl⟩
  · rcases checkArgs_cases s with ⟨path, -, heq⟩ | ⟨-, heq⟩ <;> simp [heq]
  · rcases openFile_cases s with ⟨m, -, heq⟩ | ⟨-, heq⟩
    · simp [heq, hp]
    · rcases s.print_cases Config.openErrStream (Config.openErrText s.path) with ⟨-, hprint⟩ | ⟨-, hprint⟩ <;>
        simp [heq, hprint, hp]
  · simp
  · simp
  · simp

/-- Settles O48: the run from the setting of the counter, with all bytes ahead. -/
theorem driverContractPrintsTheListing : Obligations.DriverContractPrintsTheListing := by
  intro bytes entry
  exact run_initCounter rfl (.of_ofBytes rfl rfl rfl)

/-- Settles O49: two steps to the setting of the counter, and from there on all of the file's bytes ahead. -/
theorem commandLinePrintsTheListingFrom200 : Obligations.CommandLinePrintsTheListingFrom200 := by
  intro prog path disk bytes hm
  rw [run_commandLine hm]
  exact run_initCounter rfl (.of_ofBytes rfl rfl rfl)

/-- Settles O50: the bytes ahead are those before the failing offset. -/
theorem readFailureListsTheReadablePrefix : Obligations.ReadFailureListsTheReadablePrefix := by
  intro bytes entry f hf
  have hlen : (bytes.take f).length = f := List.length_take_of_le hf
  obtain ⟨t, hrun, hphase, -, -, herr, hout⟩ := run_initCounter
    (s := { State.driverContract bytes entry with readFailsAt := some f }) rfl (.of_ofBytes_failing rfl rfl rfl)
  rw [hlen] at hrun
  exact ⟨t, hrun, hphase, herr, hout⟩

/-- Settles O28: four digits hold every 16-bit word. -/
theorem wordColumnIsFourDigits : Obligations.WordColumnIsFourDigits :=
  fun w => ⟨length_hexFixed 4 _, fun _ => isUpperHex_of_mem_hexFixed,
    (valueOf_hexFixed 4 _).trans (Nat.mod_eq_of_lt w.isLt)⟩

/-- Settles O29: the record read is its two bytes, the first one high, or there is none. -/
theorem recordIsTwoBytesBigEndian : Obligations.RecordIsTwoBytesBigEndian :=
  fun _ => ⟨fun b0 b1 hf h0 h1 => ⟨_, readRecord_of_bytes hf h0 h1, toNat_wordOfBytes b0 b1⟩, readRecord_eq_none.mpr⟩

/-- Settles O30: the record's word, decoded, gives the step. -/
theorem stepRunsTheDecodedInstruction : Obligations.StepRunsTheDecodedInstruction := by
  intro s b0 b1 hp hf h0 h1
  have hr := readRecord_of_bytes hf h0 h1
  exact ⟨fun _ hd => step_of_decode_ok hp hr hd, fun _ hd => step_of_decode_error hp hr hd⟩

/-- Settles O31: the placed record is read next, and its word decodes as the table word does. -/
theorem placedTableWordIsRunNext : Obligations.PlacedTableWordIsRunNext :=
  fun s nbits w _ hd => step_of_decode_ok rfl (readRecord_placeRecord s nbits w) (decodeTableWord_eq_some.mp hd)

/-- Settles O33: the Unrecognized outcome of the word, on the state past its record. -/
theorem unrecognizedWordPrintsPlaceholderAndRunGoesOn : Obligations.UnrecognizedWordPrintsPlaceholderAndRunGoesOn := by
  intro s s1 w e hp hr hd
  obtain ⟨-, b0, b1, -, -, -, rfl⟩ := readRecord_eq_some.mp hr
  exact ⟨_, step_of_decode_error hp hr hd, hp, rfl, rfl, rfl⟩

/-- Settles O34: a missing byte is no record, and no record ends the run. -/
theorem endOfStreamExitsZero : Obligations.EndOfStreamExitsZero :=
  fun _ hp hend => step_of_no_record hp (readRecord_eq_none.mpr (.inr hend))

/-- Settles O35: a failing read is no record, and no record ends the run (D18). -/
theorem readFailureEndsTheRunAsEndOfStream : Obligations.ReadFailureEndsTheRunAsEndOfStream :=
  fun _ _ hp hat hf => step_of_no_record hp (readRecord_eq_none.mpr (.inl (State.readFails_of_readFailsAt hat hf)))

end Sys2Proof.Machine

/-! PROOFS, 30_encoding: the decoder against the encoder (O51, O52), the words it rejects (O12) and how many it takes (O13), the
fields as numbers and bits (O16, O17), the rows of the opcode table against R108's case analysis (O18), and the instruction that a
text reads back to (O23). -/

namespace Sys2Proof

/-! ### The fields of a word as numbers (R71 to R76) -/

section
variable (w : Word)

theorem toNat_opField : (opField w).toNat = w.toNat / 4096 := by
  have := w.isLt
  simp only [opField, BitVec.extractLsb'_toNat, Nat.shiftRight_eq_div_pow]
  omega

theorem toNat_nnnField : (nnnField w).toNat = w.toNat % 4096 := by
  simp [nnnField, BitVec.extractLsb'_toNat]

theorem toNat_kkField : (kkField w).toNat = w.toNat % 256 := by
  simp [kkField, BitVec.extractLsb'_toNat]

theorem toNat_xField : (xField w).toNat = w.toNat / 256 % 16 := by
  simp [xField, BitVec.extractLsb'_toNat, Nat.shiftRight_eq_div_pow]

theorem toNat_yField : (yField w).toNat = w.toNat / 16 % 16 := by
  simp [yField, BitVec.extractLsb'_toNat, Nat.shiftRight_eq_div_pow]

theorem toNat_nField : (nField w).toNat = w.toNat % 16 := by
  simp [nField, BitVec.extractLsb'_toNat]

end

/-- The low nibble is part of the low byte (R73, R76). -/
theorem nField_eq_of_kkField_eq {w v : Word} (h : kkField w = kkField v) : nField w = nField v := by
  rw [← BitVec.toNat_inj, toNat_kkField, toNat_kkField] at h
  rw [← BitVec.toNat_inj, toNat_nField, toNat_nField]
  omega

/-! ### Decoding what is encoded (R79, R85) -/

theorem Instr.wellFormed_sys {nnn : Addr} :
    (Instr.sys nnn).wellFormed = true ↔ Addr.lowByte nnn ≠ 0xE0#8 ∧ Addr.lowByte nnn ≠ 0xEE#8 := by
  simp [Instr.wellFormed]

/-- The word of a well-formed instruction decodes to it: the primary and the selector of its row are in the word's fixed bits, and
for `SYS` the low byte is not another row's. -/
theorem decode_encode {i : Instr} (h : i.wellFormed = true) : decode (encode i) = .ok i := by
  cases i with
  | sys nnn => simp [encode, decode, decodeOp0, Instr.wellFormed_sys.mp h]
  | _ => simp [encode, decode, decodeOp0, decodeOp5, decodeOp8, decodeOp9, decodeOpE, decodeOpF]

/-- Decoding an instruction's bytes is decoding its word, and leaves the bytes that follow (R42, R43). -/
theorem decodeBytes_encodeBytes_append (i : Instr) (rest : List Byte) :
    decodeBytes (encodeBytes i ++ rest) = (decode (encode i)).map (·, rest) := by
  simp only [encodeBytes, List.cons_append, List.nil_append, decodeBytes, wordOfBytes_high_low]
  cases decode (encode i) <;> rfl

/-! ### The words that a primary rejects, and why (R82, R241) -/

section
variable {w : Word} {e : Reject}

theorem decodeOp0_ne_error : decodeOp0 w ≠ .error e := by
  unfold decodeOp0
  split_ifs <;> simp

theorem decodeOp5_eq_error_iff : decodeOp5 w = .error e ↔ e = .unrecognized .op5 ∧ nField w ≠ 0x0#4 := by
  unfold decodeOp5
  split <;> simp_all [eq_comm]

theorem decodeOp8_eq_error_iff :
    decodeOp8 w = .error e ↔
      e = .unrecognized .op8 ∧ nField w ∈ [0x8#4, 0x9#4, 0xA#4, 0xB#4, 0xC#4, 0xD#4, 0xF#4] := by
  have hlt := (nField w).isLt
  unfold decodeOp8
  split
  case h_10 =>
    simp only [imp_false] at *
    simp [← BitVec.toNat_inj, eq_comm (b := e)]
    omega
  all_goals simp [← BitVec.toNat_inj, *]

theorem decodeOp9_eq_error_iff : decodeOp9 w = .error e ↔ e = .unrecognized .op9 ∧ nField w ≠ 0x0#4 := by
  unfold decodeOp9
  split <;> simp_all [eq_comm]

theorem decodeOpE_eq_error_iff :
    decodeOpE w = .error e ↔ e = .unrecognized .opE ∧ kkField w ∉ [0x9E#8, 0xA1#8] := by
  unfold decodeOpE
  split_ifs <;> simp_all [eq_comm]

theorem decodeOpF_eq_error_iff :
    decodeOpF w = .error e ↔ e = .unrecognized .opF ∧
      kkField w ∉ [0x07#8, 0x0A#8, 0x15#8, 0x18#8, 0x1E#8, 0x29#8, 0x33#8, 0x55#8, 0x65#8] := by
  unfold decodeOpF
  split
  case h_10 => simp_all [← BitVec.toNat_inj, eq_comm (b := e)]
  all_goals simp [← BitVec.toNat_inj, *]

/-- A rejected word is rejected by one of the five primaries that reject any. -/
theorem decode_eq_error_iff :
    decode w = .error e ↔
      opField w = 0x5#4 ∧ decodeOp5 w = .error e ∨ opField w = 0x8#4 ∧ decodeOp8 w = .error e ∨
      opField w = 0x9#4 ∧ decodeOp9 w = .error e ∨ opField w = 0xE#4 ∧ decodeOpE w = .error e ∨
      opField w = 0xF#4 ∧ decodeOpF w = .error e := by
  have hlt := (opField w).isLt
  unfold decode
  split
  case h_16 =>
    simp only [imp_false] at *
    simp [← BitVec.toNat_inj, show (opField w).toNat = 15 by omega]
  all_goals simp [← BitVec.toNat_inj, *, decodeOp0_ne_error]

end

/-! ### R108's case analysis and the decoder -/

/-- A word decodes exactly when R108's case analysis selects a template for it. -/
theorem isOk_decode_iff {w : Word} : (decode w).isOk = true ↔ Machine.Block.tidOf w ≠ 0 := by
  cases hd : decode w with
  | ok i =>
    obtain ⟨hwf, rfl⟩ := wellFormed_and_encode_of_decode_ok hd
    simpa [Except.isOk, Except.toBool, Machine.Block.tidOf_encode hwf] using Nat.ne_of_gt (Machine.templateId_bounds i).1
  | error e => simp [Except.isOk, Except.toBool, tidOf_of_decode_error hd]

theorem tidOf_le (w : Word) : Machine.Block.tidOf w ≤ 35 := by
  cases hd : decode w with
  | ok i =>
    obtain ⟨hwf, rfl⟩ := wellFormed_and_encode_of_decode_ok hd
    exact Machine.Block.tidOf_encode hwf ▸ (Machine.templateId_bounds i).2
  | error e => simp [tidOf_of_decode_error hd]

/-! ### The rows of the opcode table (R79), by the fields that they test -/

/-- A row that tests the primary opcode, and leaves some low bytes to other rows. -/
def opRow (tid : Nat) (p : BitVec 4) (excludes : List Byte) : TableRow := ⟨tid, 0xF000, p ++ 0x000#12, excludes⟩

/-- A row that tests the primary opcode and the low nibble. -/
def nibbleRow (tid : Nat) (p : BitVec 4) (n : Nibble) : TableRow := ⟨tid, 0xF00F, p ++ 0x0#4 ++ 0x0#4 ++ n, []⟩

/-- A row that tests the primary opcode and the low byte. -/
def byteRow (tid : Nat) (p : BitVec 4) (k : Byte) : TableRow := ⟨tid, 0xF0FF, p ++ 0x0#4 ++ k, []⟩

theorem tableRows_eq : tableRows =
    [byteRow 1 0x0 0xE0, byteRow 2 0x0 0xEE, opRow 3 0x0 [0xE0#8, 0xEE#8], opRow 4 0x1 [], opRow 5 0x2 [], opRow 6 0x3 [],
     opRow 7 0x4 [], nibbleRow 8 0x5 0x0, opRow 9 0x6 [], opRow 10 0x7 [],
     nibbleRow 11 0x8 0x0, nibbleRow 12 0x8 0x1, nibbleRow 13 0x8 0x2, nibbleRow 14 0x8 0x3, nibbleRow 15 0x8 0x4,
     nibbleRow 16 0x8 0x5, nibbleRow 17 0x8 0x6, nibbleRow 18 0x8 0x7, nibbleRow 19 0x8 0xE,
     nibbleRow 20 0x9 0x0, opRow 21 0xA [], opRow 22 0xB [], opRow 23 0xC [], opRow 24 0xD [], byteRow 25 0xE 0x9E,
     byteRow 26 0xE 0xA1, byteRow 27 0xF 0x07, byteRow 28 0xF 0x0A, byteRow 29 0xF 0x15, byteRow 30 0xF 0x18,
     byteRow 31 0xF 0x1E, byteRow 32 0xF 0x29, byteRow 33 0xF 0x33, byteRow 34 0xF 0x55, byteRow 35 0xF 0x65] := rfl

section
variable (t : Nat) (p : BitVec 4) (w : Word)

theorem opRow_accepts (ex : List Byte) : (opRow t p ex).accepts w = true ↔ opField w = p ∧ kkField w ∉ ex := by
  have hmask : w &&& 0xF000#16 = opField w ++ 0x000#12 := by
    conv_lhs => rw [word_eq_addr w, show 0xF000#16 = BitVec.allOnes 4 ++ 0x000#12 from rfl, BitVec.and_append]
    simp only [BitVec.and_allOnes, BitVec.and_zero]
  have hvalue : (opField w ++ 0x000#12 : Word) = p ++ 0x000#12 ↔ opField w = p :=
    ⟨fun h => by simpa using congrArg opField h, fun h => by rw [h]⟩
  simp [TableRow.accepts, opRow, hmask, hvalue]

theorem nibbleRow_accepts (n : Nibble) : (nibbleRow t p n).accepts w = true ↔ opField w = p ∧ nField w = n := by
  have hmask : w &&& 0xF00F#16 = opField w ++ 0x0#4 ++ 0x0#4 ++ nField w := by
    conv_lhs => rw [word_eq_regReg w, show 0xF00F#16 = BitVec.allOnes 4 ++ 0x0#4 ++ 0x0#4 ++ BitVec.allOnes 4 from rfl,
      BitVec.and_append, BitVec.and_append, BitVec.and_append]
    simp only [BitVec.and_allOnes, BitVec.and_zero]
  have hvalue : (opField w ++ 0x0#4 ++ 0x0#4 ++ nField w : Word) = p ++ 0x0#4 ++ 0x0#4 ++ n ↔
      opField w = p ∧ nField w = n :=
    ⟨fun h => ⟨by simpa using congrArg opField h, by simpa using congrArg nField h⟩, fun ⟨hp, hn⟩ => by rw [hp, hn]⟩
  simp [TableRow.accepts, nibbleRow, hmask, hvalue]

theorem byteRow_accepts (k : Byte) : (byteRow t p k).accepts w = true ↔ opField w = p ∧ kkField w = k := by
  have hmask : w &&& 0xF0FF#16 = opField w ++ 0x0#4 ++ kkField w := by
    conv_lhs => rw [word_eq_regByte w, show 0xF0FF#16 = BitVec.allOnes 4 ++ 0x0#4 ++ BitVec.allOnes 8 from rfl,
      BitVec.and_append, BitVec.and_append]
    simp only [BitVec.and_allOnes, BitVec.and_zero]
  have hvalue : (opField w ++ 0x0#4 ++ kkField w : Word) = p ++ 0x0#4 ++ k ↔ opField w = p ∧ kkField w = k :=
    ⟨fun h => ⟨by simpa using congrArg opField h, by simpa using congrArg kkField h⟩, fun ⟨hp, hk⟩ => by rw [hp, hk]⟩
  simp [TableRow.accepts, byteRow, hmask, hvalue]

end

theorem tid_ne_zero_of_mem_tableRows {r : TableRow} (hr : r ∈ tableRows) : r.tid ≠ 0 := by
  revert r; decide

/-- The word of a well-formed instruction is accepted by the row of its template id. -/
theorem exists_row_accepts_encode {i : Instr} (h : i.wellFormed = true) :
    ∃ r, tableRows[i.templateId - 1]? = some r ∧ r.tid = i.templateId ∧ r.accepts (encode i) = true := by
  rw [tableRows_eq]
  cases i with
  | sys nnn => exact ⟨_, rfl, rfl, by simp [opRow_accepts, encode, Instr.wellFormed_sys.mp h]⟩
  | _ => exact ⟨_, rfl, rfl, by simp [opRow_accepts, nibbleRow_accepts, byteRow_accepts, encode]⟩

/-- A row accepts only words for which R108's case analysis selects the row's template. -/
theorem tidOf_of_accepts {w : Word} {r : TableRow} (hr : r ∈ tableRows) (h : r.accepts w = true) :
    Machine.Block.tidOf w = r.tid := by
  rw [tableRows_eq] at hr
  fin_cases hr
  all_goals
    simp only [opRow_accepts, nibbleRow_accepts, byteRow_accepts, List.mem_cons, List.not_mem_nil, or_false, not_or] at h
    simp [Machine.Block.tidOf, h, Config.fxSel, Machine.Block.index, opRow, nibbleRow, byteRow]

/-- The row of the template that R108's case analysis selects accepts the word. -/
theorem exists_row_of_tidOf_ne_zero {w : Word} (h : Machine.Block.tidOf w ≠ 0) :
    ∃ r ∈ tableRows, r.tid = Machine.Block.tidOf w ∧ r.accepts w = true := by
  cases hd : decode w with
  | ok i =>
    obtain ⟨hwf, rfl⟩ := wellFormed_and_encode_of_decode_ok hd
    obtain ⟨r, hr, htid, hacc⟩ := exists_row_accepts_encode hwf
    exact ⟨r, List.mem_of_getElem? hr, htid.trans (Machine.Block.tidOf_encode hwf).symm, hacc⟩
  | error e => exact absurd (tidOf_of_decode_error hd) h

/-- The demultiplexer's output that is 1 is the one of the template id that R108's case analysis gives (R105, D3). -/
theorem sel_eq_true_iff {w : Word} {t : Nat} : sel w t = true ↔ t = Machine.Block.tidOf w := by
  by_cases ht : t = 0
  · have hsel : sel w t = true ↔ ∀ r ∈ tableRows, ¬ r.accepts w = true := by simp [sel, ht]
    rw [hsel, ht]
    constructor
    · intro hnone
      by_contra hne
      obtain ⟨r, hr, -, hacc⟩ := exists_row_of_tidOf_ne_zero (Ne.symm hne)
      exact hnone r hr hacc
    · intro hzero r hr hacc
      exact tid_ne_zero_of_mem_tableRows hr ((tidOf_of_accepts hr hacc).symm.trans hzero.symm)
  · have hsel : sel w t = true ↔ ∃ r ∈ tableRows, r.tid = t ∧ r.accepts w = true := by simp [sel, ht]
    rw [hsel]
    constructor
    · rintro ⟨r, hr, rfl, hacc⟩
      exact (tidOf_of_accepts hr hacc).symm
    · rintro rfl
      exact exists_row_of_tidOf_ne_zero ht

/-! ### Counting the words of a primary (R81) -/

/-- Whether a word decodes depends on its primary opcode and its low byte alone (R80). -/
theorem isOk_decode_congr {w v : Word} (hop : opField w = opField v) (hkk : kkField w = kkField v) :
    (decode w).isOk = (decode v).isOk := by
  rw [Bool.eq_iff_iff, isOk_decode_iff, isOk_decode_iff]
  simp only [Machine.Block.tidOf, hop, hkk, nField_eq_of_kkField_eq hkk]

/-- `a` periods of a property of numbers count `a` times as much as the first. -/
theorem length_filter_range_mul {p : Nat → Bool} {k : Nat} (a : Nat) (hp : ∀ i < a, ∀ j < k, p (i * k + j) = p j) :
    ((List.range (a * k)).filter p).length = a * ((List.range k).filter p).length := by
  induction a with
  | zero => simp
  | succ a ih =>
    have hlast : (List.range k).filter (p ∘ (a * k + ·)) = (List.range k).filter p :=
      List.filter_congr fun j hj => hp a (Nat.lt_succ_self a) j (List.mem_range.mp hj)
    rw [Nat.succ_mul, List.range_add, List.filter_append, List.length_append, List.filter_map, hlast, List.length_map,
      ih fun i hi => hp i (Nat.lt_succ_of_lt hi), Nat.succ_mul]

/-- The words of a primary that decode are 16 times those with `x = 0`: no row tests `x`. -/
theorem length_filter_isOk_decode (op : Nat) :
    ((List.range 4096).filter fun nnn => (decode (BitVec.ofNat 16 (op * 4096 + nnn))).isOk).length =
      16 * ((List.range 256).filter fun kk => (decode (BitVec.ofNat 16 (op * 4096 + kk))).isOk).length := by
  refine length_filter_range_mul (k := 256) 16 fun x hx kk hkk => isOk_decode_congr ?_ ?_
  · simp only [← BitVec.toNat_inj, toNat_opField, BitVec.toNat_ofNat]
    omega
  · simp only [← BitVec.toNat_inj, toNat_kkField, BitVec.toNat_ofNat]
    omega

end Sys2Proof

namespace Sys2Proof.Machine

/-! ### Reading a text back (R106, R110 to R115) -/

/-- The register index or nibble that a digit shows. -/
def readDigit (c : Char) : BitVec 4 := BitVec.ofNat 4 (digitValue c)

/-- The byte that two digits show. -/
def readByte (h l : Char) : Byte := readDigit h ++ readDigit l

/-- The address that three digits show. -/
def readAddr (a b c : Char) : Addr := readDigit a ++ readDigit b ++ readDigit c

/-- The instruction that a text names, for the templates with a text of their own (ids 3 to 26): the mnemonic and the first
characters of the operands tell the template, the digits its operands. The decimal of a byte is not read. -/
def readText : Text → Option Instr
  | 'S' :: 'Y' :: 'S' :: ' ' :: '0' :: 'x' :: a :: b :: c :: _ => some (.sys (readAddr a b c))
  | 'J' :: 'P' :: ' ' :: '0' :: 'x' :: a :: b :: c :: _ => some (.jp (readAddr a b c))
  | 'C' :: 'A' :: 'L' :: 'L' :: ' ' :: '0' :: 'x' :: a :: b :: c :: _ => some (.call (readAddr a b c))
  | 'S' :: 'E' :: ' ' :: 'V' :: x :: ',' :: ' ' :: '0' :: 'x' :: h :: l :: _ => some (.seByte (readDigit x) (readByte h l))
  | 'S' :: 'N' :: 'E' :: ' ' :: 'V' :: x :: ',' :: ' ' :: '0' :: 'x' :: h :: l :: _ =>
    some (.sneByte (readDigit x) (readByte h l))
  | 'S' :: 'E' :: ' ' :: 'V' :: x :: ',' :: ' ' :: 'V' :: y :: _ => some (.seReg (readDigit x) (readDigit y))
  | 'L' :: 'D' :: ' ' :: 'V' :: x :: ',' :: ' ' :: '0' :: 'x' :: h :: l :: _ => some (.ldByte (readDigit x) (readByte h l))
  | 'A' :: 'D' :: 'D' :: ' ' :: 'V' :: x :: ',' :: ' ' :: '0' :: 'x' :: h :: l :: _ =>
    some (.addByte (readDigit x) (readByte h l))
  | 'L' :: 'D' :: ' ' :: 'V' :: x :: ',' :: ' ' :: 'V' :: y :: _ => some (.ldReg (readDigit x) (readDigit y))
  | 'O' :: 'R' :: ' ' :: 'V' :: x :: ',' :: ' ' :: 'V' :: y :: _ => some (.orReg (readDigit x) (readDigit y))
  | 'A' :: 'N' :: 'D' :: ' ' :: 'V' :: x :: ',' :: ' ' :: 'V' :: y :: _ => some (.andReg (readDigit x) (readDigit y))
  | 'X' :: 'O' :: 'R' :: ' ' :: 'V' :: x :: ',' :: ' ' :: 'V' :: y :: _ => some (.xorReg (readDigit x) (readDigit y))
  | 'A' :: 'D' :: 'D' :: ' ' :: 'V' :: x :: ',' :: ' ' :: 'V' :: y :: _ => some (.addReg (readDigit x) (readDigit y))
  | 'S' :: 'U' :: 'B' :: ' ' :: 'V' :: x :: ',' :: ' ' :: 'V' :: y :: _ => some (.subReg (readDigit x) (readDigit y))
  | 'S' :: 'H' :: 'R' :: ' ' :: 'V' :: x :: ',' :: ' ' :: 'V' :: y :: _ => some (.shrReg (readDigit x) (readDigit y))
  | 'S' :: 'U' :: 'B' :: 'N' :: ' ' :: 'V' :: x :: ',' :: ' ' :: 'V' :: y :: _ => some (.subnReg (readDigit x) (readDigit y))
  | 'S' :: 'H' :: 'L' :: ' ' :: 'V' :: x :: ',' :: ' ' :: 'V' :: y :: _ => some (.shlReg (readDigit x) (readDigit y))
  | 'S' :: 'N' :: 'E' :: ' ' :: 'V' :: x :: ',' :: ' ' :: 'V' :: y :: _ => some (.sneReg (readDigit x) (readDigit y))
  | 'L' :: 'D' :: ' ' :: 'I' :: ',' :: ' ' :: '0' :: 'x' :: a :: b :: c :: _ => some (.ldI (readAddr a b c))
  | 'J' :: 'P' :: ' ' :: 'V' :: '0' :: ',' :: ' ' :: '0' :: 'x' :: a :: b :: c :: _ => some (.jpV0 (readAddr a b c))
  | 'R' :: 'N' :: 'D' :: ' ' :: 'V' :: x :: ',' :: ' ' :: '0' :: 'x' :: h :: l :: _ =>
    some (.rnd (readDigit x) (readByte h l))
  | 'D' :: 'R' :: 'W' :: ' ' :: 'V' :: x :: ',' :: ' ' :: 'V' :: y :: ',' :: ' ' :: '0' :: 'x' :: n :: _ =>
    some (.drw (readDigit x) (readDigit y) (readDigit n))
  | 'S' :: 'K' :: 'P' :: ' ' :: 'V' :: x :: _ => some (.skp (readDigit x))
  | 'S' :: 'K' :: 'N' :: 'P' :: ' ' :: 'V' :: x :: _ => some (.sknp (readDigit x))
  | _ => none

/-- What the digit of a number's last hexadecimal place shows. -/
theorem toNat_readDigit_digitChar (v : Nat) : (readDigit (digitChar (v % 16))).toNat = v % 16 := by
  have hv : v % 16 < 16 := Nat.mod_lt _ (by decide)
  rw [readDigit, (digitChar_spec hv).2.1, BitVec.toNat_ofNat, Nat.mod_eq_of_lt hv]

theorem readDigit_digit (x : BitVec 4) : readDigit (digitChar (x.toNat % 16)) = x :=
  BitVec.eq_of_toNat_eq ((toNat_readDigit_digitChar _).trans (Nat.mod_eq_of_lt x.isLt))

/-- A digit in front of others counts for as many places as they have. -/
theorem toNat_append_eq_add {m n : Nat} (a : BitVec m) (b : BitVec n) : (a ++ b).toNat = a.toNat * 2 ^ n + b.toNat := by
  rw [BitVec.toNat_append, ← Nat.shiftLeft_add_eq_or_of_lt b.isLt, Nat.shiftLeft_eq]

theorem readByte_digits (v : Byte) : readByte (digitChar (v.toNat / 16 % 16)) (digitChar (v.toNat % 16)) = v := by
  have hv := v.isLt
  refine BitVec.eq_of_toNat_eq ?_
  simp only [readByte, toNat_append_eq_add, toNat_readDigit_digitChar]
  omega

theorem readAddr_digits (v : Addr) :
    readAddr (digitChar (v.toNat / 16 / 16 % 16)) (digitChar (v.toNat / 16 % 16)) (digitChar (v.toNat % 16)) = v := by
  have hv := v.isLt
  refine BitVec.eq_of_toNat_eq ?_
  simp only [readAddr, toNat_append_eq_add, toNat_readDigit_digitChar]
  omega

/-- The text of an instruction with template id 3 to 26 reads back to the instruction: the reader computes the template's
constructor, applied to the digits of the operands. -/
theorem readText_textOf {i : Instr} (hlo : 3 ≤ i.templateId) (hhi : i.templateId ≤ 26) : readText (textOf i) = some i := by
  have reg1 (f : RegIdx → Instr) (x) : some (f (readDigit (digitChar (x.toNat % 16)))) = some (f x) := by
    rw [readDigit_digit]
  have reg2 (f : RegIdx → RegIdx → Instr) (x y) :
      some (f (readDigit (digitChar (x.toNat % 16))) (readDigit (digitChar (y.toNat % 16)))) = some (f x y) := by
    rw [readDigit_digit, readDigit_digit]
  have addr1 (f : Addr → Instr) (v) :
      some (f (readAddr (digitChar (v.toNat / 16 / 16 % 16)) (digitChar (v.toNat / 16 % 16)) (digitChar (v.toNat % 16)))) =
        some (f v) := by
    rw [readAddr_digits]
  have regByte (f : RegIdx → Byte → Instr) (x v) :
      some (f (readDigit (digitChar (x.toNat % 16))) (readByte (digitChar (v.toNat / 16 % 16)) (digitChar (v.toNat % 16)))) =
        some (f x v) := by
    rw [readDigit_digit, readByte_digits]
  cases i with
  | sys nnn => exact addr1 .sys nnn
  | jp nnn => exact addr1 .jp nnn
  | call nnn => exact addr1 .call nnn
  | seByte x kk => exact regByte .seByte x kk
  | sneByte x kk => exact regByte .sneByte x kk
  | seReg x y => exact reg2 .seReg x y
  | ldByte x kk => exact regByte .ldByte x kk
  | addByte x kk => exact regByte .addByte x kk
  | ldReg x y => exact reg2 .ldReg x y
  | orReg x y => exact reg2 .orReg x y
  | andReg x y => exact reg2 .andReg x y
  | xorReg x y => exact reg2 .xorReg x y
  | addReg x y => exact reg2 .addReg x y
  | subReg x y => exact reg2 .subReg x y
  | shrReg x y => exact reg2 .shrReg x y
  | subnReg x y => exact reg2 .subnReg x y
  | shlReg x y => exact reg2 .shlReg x y
  | sneReg x y => exact reg2 .sneReg x y
  | ldI nnn => exact addr1 .ldI nnn
  | jpV0 nnn => exact addr1 .jpV0 nnn
  | rnd x kk => exact regByte .rnd x kk
  | drw x y n => exact (reg2 (.drw · · _) x y).trans (reg1 (.drw x y) n)
  | skp x => exact reg1 .skp x
  | sknp x => exact reg1 .sknp x
  | _ => simp [Instr.templateId] at hlo hhi

/-- What an instruction's outcome has on the ports: the instruction's own template id and text. -/
theorem ports_of_exec {i : Instr} {s t : State} (h : exec i s = .next t) :
    t.ports.tid.toNat = i.templateId ∧ t.ports.text = textOf i := by
  obtain rfl : _ = t := by simpa [exec_eq, recognized] using h
  have hle := (templateId_bounds i).2
  exact ⟨Nat.mod_eq_of_lt (by omega), rfl⟩

/-! ### The obligations of 30_encoding -/

/-- Settles O51: the case split over the 35 rows is `decode_encode`. -/
theorem decodeOfEncodeIsTheInstruction : Obligations.DecodeOfEncodeIsTheInstruction := by
  intro i rest hwf
  exact ⟨decode_encode hwf, by rw [decodeBytes_encodeBytes_append, decode_encode hwf]; rfl⟩

/-- Settles O52: every decode outcome fits its word. -/
theorem encodeOfDecodeIsTheWord : Obligations.EncodeOfDecodeIsTheWord :=
  fun _ _ => wellFormed_and_encode_of_decode_ok

/-- Settles O12: the five primaries that reject words, each with its own condition and space. -/
theorem unrecognizedWordsAreExactlyTheListedSpaces : Obligations.UnrecognizedWordsAreExactlyTheListedSpaces := by
  intro w
  simp [decode_eq_error_iff, decodeOp5_eq_error_iff, decodeOp8_eq_error_iff, decodeOp9_eq_error_iff,
    decodeOpE_eq_error_iff, decodeOpF_eq_error_iff]

/-- Settles O18: the one output that is 1 is that of the template id of R108's case analysis. -/
theorem demultiplexerIsOneHot : Obligations.DemultiplexerIsOneHot :=
  fun w => ⟨_, tidOf_le w, sel_eq_true_iff.mpr rfl, fun _ => sel_eq_true_iff.mp⟩

/-- Settles O23: each of the two texts reads back to its instruction. -/
theorem textDeterminesTheWord : Obligations.TextDeterminesTheWord := by
  intro i j s t u hi hj ht3 ht26 hu3 hu26 htext
  obtain ⟨hti, hxi⟩ := ports_of_exec hi
  obtain ⟨htj, hxj⟩ := ports_of_exec hj
  rw [hti] at ht3 ht26
  rw [htj] at hu3 hu26
  rw [hxi, hxj] at htext
  exact Option.some.inj (calc some i
    _ = readText (textOf i) := (readText_textOf ht3 ht26).symm
    _ = readText (textOf j) := by rw [htext]
    _ = some j := readText_textOf hu3 hu26)

/-- Settles O13: 16 times the count of the low bytes that each primary takes. -/
theorem recognizedCountsPerPrimary : Obligations.RecognizedCountsPerPrimary := by
  unfold Obligations.RecognizedCountsPerPrimary
  simp only [length_filter_isOk_decode]
  decide +kernel

/-- Settles O16: the bits of a slice. -/
theorem fieldsAreTheSlicesOfTheWord : Obligations.FieldsAreTheSlicesOfTheWord := by
  intro w j
  simp [opField, nnnField, kkField, xField, yField, nField]

/-- Settles O17: the fields as quotients and remainders of the word. -/
theorem fieldIdentities : Obligations.FieldIdentities := by
  intro w
  simp only [toNat_opField, toNat_nnnField, toNat_kkField, toNat_xField, toNat_yField, toNat_nField]
  omega

/-- Settles O53: the decoder, run on each word. -/
theorem wordsWrittenOutFromTheTableDecode : Obligations.WordsWrittenOutFromTheTableDecode := by
  unfold Obligations.WordsWrittenOutFromTheTableDecode
  decide

end Sys2Proof.Machine

/-! PROOFS, 40_decoder_core: the outputs of the block for the word read (O14, O15, O19), the operand renderers (O24 to O26), and the
characters (O21) and the length (O22) of the texts that are rendered. -/

namespace Sys2Proof.Machine

/-! ### The ports that R108's function drives (R100 to R108) -/

namespace Block

section
variable (fx : Byte → RegIdx → Text) (w : Word)

/-- A template id fits the 6 bits of the `tid` output. -/
theorem toNat_ofNat_tidOf : (BitVec.ofNat 6 (tidOf w)).toNat = tidOf w :=
  Nat.mod_eq_of_lt (Nat.lt_of_le_of_lt (tidOf_le w) (by decide))

/-- The two outcomes of R108's function, by the template that its case analysis selects. -/
theorem decode_cases :
    (tidOf w = 0 ∧ decode fx w = .unrecognized) ∨
      (tidOf w ≠ 0 ∧ decode fx w = .recognized (BitVec.ofNat 6 (tidOf w)) (renderTemplate fx (tidOf w) w)) := by
  by_cases h : tidOf w = 0
  · exact .inl ⟨h, if_pos h⟩
  · exact .inr ⟨h, if_neg h⟩

/-- Recognized or not, the block drives the word and the template id of R108's case analysis, 0 for none (R107, D3, D4). -/
theorem exists_ports_eq_drive : ∃ text, ports fx w = Ports.drive w (BitVec.ofNat 6 (tidOf w)) text := by
  rcases decode_cases fx w with ⟨htid, hdec⟩ | ⟨-, hdec⟩
  · exact ⟨[], by rw [ports, hdec, htid, Ports.unrecognized]⟩
  · exact ⟨_, by rw [ports, hdec]⟩

/-- The result on the ports is R108's function of the word (R117). -/
theorem result_ports : (ports fx w).result = decode fx w := by
  rcases decode_cases fx w with ⟨-, hdec⟩ | ⟨htid, hdec⟩
  · rw [ports, hdec, Ports.result_unrecognized]
  · have hne : BitVec.ofNat 6 (tidOf w) ≠ 0#6 := fun h =>
      htid ((toNat_ofNat_tidOf w).symm.trans (congrArg BitVec.toNat h))
    rw [ports, hdec, Ports.result_drive w _ hne]

end

end Block

/-- Ports that show a Recognized result have `valid = 1` and the result's template id and text. -/
theorem Ports.outputs_of_result_recognized {p : Ports} {tid : BitVec 6} {text : Text}
    (h : p.result = .recognized tid text) : p.valid = true ∧ p.tid = tid ∧ p.text = text := by
  cases hv : p.valid with
  | false => simp [Ports.result, hv] at h
  | true => simpa [Ports.result, hv] using h

/-! ### The operand renderers (R110 to R114) -/

/-- A digit's character, by its place among the sixteen. -/
theorem digitChar_eq_getD {d : Nat} (h : d < 16) :
    digitChar d = ['0', '1', '2', '3', '4', '5', '6', '7', '8', '9', 'A', 'B', 'C', 'D', 'E', 'F'].getD d '?' := by
  interval_cases d <;> rfl

/-- `hexK(v)` is `k` uppercase digits that denote `v`, where `k` digits can. -/
theorem hexFixed_reads_back {k v : Nat} (h : v < 16 ^ k) :
    (hexFixed k v).length = k ∧ (∀ c ∈ hexFixed k v, isUpperHex c = true) ∧ valueOf 16 (hexFixed k v) = v :=
  ⟨length_hexFixed k v, fun _ => isUpperHex_of_mem_hexFixed, by rw [valueOf_hexFixed, Nat.mod_eq_of_lt h]⟩

/-- `dec(v)` is at least one decimal digit, denotes `v`, and begins with 0 only for the number 0 (D7). -/
theorem dec_reads_back (v : Nat) :
    dec v ≠ [] ∧ (∀ c ∈ dec v, isDecimal c = true) ∧ valueOf 10 (dec v) = v ∧ ((dec v).head? = some '0' → dec v = ['0']) := by
  obtain ⟨hne, hdigit, hval, hhead⟩ := digits_spec (base := 10) (by decide) (by decide) v
  refine ⟨hne, fun c hc => ?_, hval, fun hzero => ?_⟩
  · obtain ⟨d, hd, rfl⟩ := hdigit c hc
    obtain ⟨-, -, -, -, -, hdec⟩ := digitChar_spec (show d < 16 by omega)
    exact hdec hd
  · obtain rfl : v = 0 := by
      by_contra hv
      exact hhead hv hzero
    rfl

/-- A number below `base ^ (k + 1)` has at most `k + 1` digits. -/
theorem length_digitsFuel_le {base fuel v k : Nat} (hv : v < base ^ (k + 1)) : (digitsFuel base fuel v).length ≤ k + 1 := by
  induction fuel generalizing v k with
  | zero => simp [digitsFuel]
  | succ fuel ih =>
    simp only [digitsFuel]
    split
    · simp
    next hbase =>
      cases k with
      | zero => exact absurd (by simpa using hv) hbase
      | succ k =>
        have hlt : v / base < base ^ (k + 1) := Nat.div_lt_of_lt_mul (by rwa [Nat.mul_comm, ← pow_succ])
        simpa using ih hlt

/-! ### The lengths of the operands -/

@[simp] theorem length_reg (i : RegIdx) : (reg i).length = 2 := by simp [reg]

@[simp] theorem length_addr (v : Addr) : (addr v).length = 5 := by simp [addr]

@[simp] theorem length_nib (v : Nibble) : (nib v).length = 3 := by simp [nib]

/-- A byte is rendered in at most 10 characters: three decimal digits at most. -/
theorem length_byte_le (v : Byte) : (byte v).length ≤ 10 := by
  have hdec : (dec v.toNat).length ≤ 3 :=
    length_digitsFuel_le (Nat.lt_of_lt_of_le v.isLt (by decide))
  simp only [byte, List.length_append, length_hexFixed, List.length_cons, List.length_nil]
  omega

/-! ### The characters of the texts (R116) -/

/-- A non-empty text that obeys R116. -/
def IsNonemptyLegal (t : Text) : Prop := t ≠ [] ∧ isLegalText t = true

/-- R116's three clauses, one by one. -/
theorem isLegalText_iff {t : Text} :
    isLegalText t = true ↔
      (∀ c ∈ t, isPrintable c = true) ∧ t.head? ≠ some ' ' ∧ t.getLast? ≠ some ' ' := by
  simp [isLegalText, and_assoc]

/-- An uppercase hexadecimal digit is printable and no space. -/
theorem isPrintable_of_isUpperHex {c : Char} (h : isUpperHex c = true) : isPrintable c = true ∧ c ≠ ' ' := by
  refine ⟨?_, by rintro rfl; exact absurd h (by decide)⟩
  simp only [isUpperHex, isPrintable, Bool.or_eq_true, Bool.and_eq_true, decide_eq_true_eq] at h ⊢
  omega

/-- A decimal digit is an uppercase hexadecimal digit. -/
theorem isUpperHex_of_isDecimal {c : Char} (h : isDecimal c = true) : isUpperHex c = true := by
  rw [isUpperHex, Bool.or_eq_true]
  exact .inl h

namespace IsNonemptyLegal

/-- Printable characters with no space among them are legal. -/
theorem of_no_space {t : Text} (hne : t ≠ []) (h : ∀ c ∈ t, isPrintable c = true ∧ c ≠ ' ') : IsNonemptyLegal t :=
  ⟨hne, isLegalText_iff.mpr ⟨fun c hc => (h c hc).1, fun hh => (h _ (List.mem_of_head? hh)).2 rfl,
    fun hl => (h _ (List.mem_of_getLast? hl)).2 rfl⟩⟩

/-- Two legal texts stay legal with printable characters, spaces included, between them. -/
theorem append {a b sep : Text} (ha : IsNonemptyLegal a) (hsep : sep.all isPrintable = true)
    (hb : IsNonemptyLegal b) : IsNonemptyLegal (a ++ sep ++ b) := by
  obtain ⟨hane, ha⟩ := ha
  obtain ⟨hbne, hb⟩ := hb
  obtain ⟨hap, hahead, -⟩ := isLegalText_iff.mp ha
  obtain ⟨hbp, -, hblast⟩ := isLegalText_iff.mp hb
  refine ⟨by simp [hane], isLegalText_iff.mpr ⟨fun c hc => ?_, ?_, ?_⟩⟩
  · rcases List.mem_append.mp hc with hc | hc
    · exact (List.mem_append.mp hc).elim (hap c) (List.all_eq_true.mp hsep c)
    · exact hbp c hc
  · rwa [List.append_assoc, List.head?_append_of_ne_nil a hane]
  · rwa [List.getLast?_append_of_ne_nil _ hbne]

/-- Two legal texts stay legal one after the other. -/
theorem concat {a b : Text} (ha : IsNonemptyLegal a) (hb : IsNonemptyLegal b) : IsNonemptyLegal (a ++ b) := by
  simpa using ha.append (sep := []) rfl hb

theorem hexFixed {k : Nat} (hk : 0 < k) (v : Nat) : IsNonemptyLegal (hexFixed k v) :=
  of_no_space (List.ne_nil_of_length_pos (by simpa using hk))
    fun _ hc => isPrintable_of_isUpperHex (isUpperHex_of_mem_hexFixed hc)

theorem dec (v : Nat) : IsNonemptyLegal (dec v) := by
  obtain ⟨hne, hdigit, -, -⟩ := dec_reads_back v
  exact of_no_space hne fun c hc => isPrintable_of_isUpperHex (isUpperHex_of_isDecimal (hdigit c hc))

theorem letterV : IsNonemptyLegal ['V'] := ⟨by decide, by decide⟩

theorem zeroX : IsNonemptyLegal ['0', 'x'] := ⟨by decide, by decide⟩

theorem reg (i : RegIdx) : IsNonemptyLegal (reg i) := letterV.concat (hexFixed (k := 1) (by decide) _)

theorem addr (v : Addr) : IsNonemptyLegal (addr v) := zeroX.concat (hexFixed (k := 3) (by decide) _)

theorem nib (v : Nibble) : IsNonemptyLegal (nib v) := zeroX.concat (hexFixed (k := 1) (by decide) _)

/-- The one operand with a space in it: the space stands between the hexadecimal digits and the parentheses. -/
theorem byte (v : Byte) : IsNonemptyLegal (byte v) := by
  have hopen : IsNonemptyLegal ['('] := ⟨by decide, by decide⟩
  have hclose : IsNonemptyLegal [')'] := ⟨by decide, by decide⟩
  have hbyte : Machine.byte v =
      ['0', 'x'] ++ Machine.hexFixed 2 v.toNat ++ [' '] ++ (['('] ++ Machine.dec v.toNat ++ [')']) := by
    simp [Machine.byte]
  rw [hbyte]
  exact (zeroX.concat (hexFixed (by decide) _)).append rfl ((hopen.concat (dec _)).concat hclose)

theorem litI : IsNonemptyLegal litI := ⟨by decide, by decide⟩

theorem litV0 : IsNonemptyLegal litV0 := ⟨by decide, by decide⟩

theorem joinOps {ops : List Text} (hne : ops ≠ []) (h : ∀ o ∈ ops, IsNonemptyLegal o) : IsNonemptyLegal (joinOps ops) := by
  induction ops with
  | nil => exact absurd rfl hne
  | cons a rest ih =>
    cases rest with
    | nil => exact h a List.mem_cons_self
    | cons b rest =>
      exact (h a List.mem_cons_self).append (sep := [',', ' ']) rfl (ih (by simp) fun o ho => h o (List.mem_cons_of_mem a ho))

theorem render {m : Text} {ops : List Text} (hm : IsNonemptyLegal m) (h : ∀ o ∈ ops, IsNonemptyLegal o) :
    IsNonemptyLegal (render m ops) := by
  cases ops with
  | nil => exact hm
  | cons a rest => exact hm.append (sep := [' ']) rfl (joinOps (by simp) h)

/-- The 26 mnemonics (R79). -/
theorem mnemonic {t : Nat} (hlo : 1 ≤ t) (hhi : t ≤ 26) : IsNonemptyLegal (Block.mnemonic t) := by
  constructor <;> interval_cases t <;> decide

/-- Every operand that R106 routes to a template: a register, a byte, an address, a nibble or a literal. -/
theorem operands (t : Nat) (w : Word) : ∀ o ∈ Block.operands t w, IsNonemptyLegal o := by
  unfold Block.operands
  split_ifs <;> simp [reg, byte, addr, nib, litI, litV0]

end IsNonemptyLegal

/-! ### The text of an instruction: a rendered template, or an open `Fx` text -/

/-- The texts of the templates with id 27 and above are `FX_TEXT` of one of the nine selectors (R106, R219). -/
theorem exists_textOf_eq_fxText {i : Instr} (h : 27 ≤ i.templateId) :
    ∃ kk ∈ Config.fxSel, ∃ x, textOf i = Config.fxText kk x := by
  cases i
  case fx07 x => exact ⟨_, by decide, x, rfl⟩
  case fx0A x => exact ⟨_, by decide, x, rfl⟩
  case fx15 x => exact ⟨_, by decide, x, rfl⟩
  case fx18 x => exact ⟨_, by decide, x, rfl⟩
  case fx1E x => exact ⟨_, by decide, x, rfl⟩
  case fx29 x => exact ⟨_, by decide, x, rfl⟩
  case fx33 x => exact ⟨_, by decide, x, rfl⟩
  case fx55 x => exact ⟨_, by decide, x, rfl⟩
  case fx65 x => exact ⟨_, by decide, x, rfl⟩
  all_goals exact absurd h (by simp [Instr.templateId])

/-- The texts of the other templates are their mnemonic and the operands routed to them (R106, R115). -/
theorem textOf_eq_render {i : Instr} (h : i.templateId < 27) :
    textOf i = render (Block.mnemonic i.templateId) (Block.operands i.templateId (encode i)) := by
  rw [← Block.renderTemplate_encode, Block.renderTemplate, if_neg (by omega)]

theorem isNonemptyLegal_textOf (i : Instr) : IsNonemptyLegal (textOf i) := by
  by_cases h : i.templateId < 27
  · rw [textOf_eq_render h]
    exact (IsNonemptyLegal.mnemonic (templateId_bounds i).1 (by omega)).render (.operands _ _)
  · obtain ⟨kk, -, x, htext⟩ := exists_textOf_eq_fxText (show 27 ≤ i.templateId by omega)
    rw [htext]
    exact fxText_legal kk x

/-! ### The lengths of the texts (R119) -/

/-- An element of a list is at most the fold of the list's maximum. -/
theorem le_foldl_max_of_mem {l : List Nat} {a b : Nat} (h : a ∈ l) : a ≤ l.foldl max b := by
  rw [List.foldl_max]
  exact (List.le_max?_getD_of_mem h).trans (Nat.le_max_right _ _)

theorem mem_allRegs (x : RegIdx) : x ∈ Config.allRegs := by
  revert x; decide

/-- `TEXT_MAX` bounds every text that `FX_TEXT` gives for a selector. -/
theorem length_fx_le_textMaxOf (fx : Byte → RegIdx → Text) {kk : Byte} (hkk : kk ∈ Config.fxSel) (x : RegIdx) :
    (fx kk x).length ≤ Config.textMaxOf fx :=
  calc (fx kk x).length
    _ ≤ (Config.allRegs.map fun x => (fx kk x).length).foldl max 0 :=
      le_foldl_max_of_mem (List.mem_map_of_mem (mem_allRegs x))
    _ ≤ Config.textMaxOf fx := le_foldl_max_of_mem (List.mem_map_of_mem hkk)

theorem le_textMaxOf (fx : Byte → RegIdx → Text) : 18 ≤ Config.textMaxOf fx := by
  rw [Config.textMaxOf, List.foldl_max]
  exact Nat.le_max_left _ _

/-- A template with a byte operand has a mnemonic of at most 3 characters, and every other text is shorter than that one can be. -/
theorem length_textOf_le {i : Instr} (h : i.templateId < 27) : (textOf i).length ≤ 18 := by
  cases i
  case seByte x kk | sneByte x kk | ldByte x kk | addByte x kk | rnd x kk =>
    have hkk := length_byte_le kk
    simp only [textOf, render, joinOps, List.length_append, List.length_cons, List.length_nil, length_reg]
    omega
  all_goals simp [Instr.templateId, textOf, render, joinOps, litI, litV0] at h ⊢

theorem length_textOf_le_textMax (i : Instr) : (textOf i).length ≤ Config.textMax := by
  by_cases h : i.templateId < 27
  · exact (length_textOf_le h).trans (le_textMaxOf _)
  · obtain ⟨kk, hkk, x, htext⟩ := exists_textOf_eq_fxText (show 27 ≤ i.templateId by omega)
    rw [htext]
    exact length_fx_le_textMaxOf _ hkk x

/-! ### The obligations of 40_decoder_core -/

/-- Settles O14: the step drives R108's ports, whose result is R108's function, and the outputs are those of the result. -/
theorem stepAnswersTheDecodeFunction : Obligations.StepAnswersTheDecodeFunction := by
  intro s s1 w hp hr
  refine ⟨_, step_of_readRecord hp hr, Block.ports_insn _ _, Block.result_ports _ _, ?_⟩
  rcases Block.decode_cases Config.fxText w with ⟨-, hdec⟩ | ⟨-, hdec⟩
  · simp [hdec, Block.ports, Ports.unrecognized, Ports.drive, validOf]
  · have hres := (Block.result_ports Config.fxText w).trans hdec
    simpa [hdec] using Ports.outputs_of_result_recognized hres

/-- Settles O19: the `tid` output is the template id of R108's case analysis, and that selects the demultiplexer's output. -/
theorem tidOutputIsTheSelectedDemuxOutput : Obligations.TidOutputIsTheSelectedDemuxOutput := by
  intro s s1 w hp hr
  obtain ⟨text, hports⟩ := Block.exists_ports_eq_drive Config.fxText w
  refine ⟨_, step_of_readRecord hp hr, ?_, ?_⟩
  · rw [finishRecord_ports, hports]
    exact sel_eq_true_iff.mpr (Block.toNat_ofNat_tidOf w)
  · rw [finishRecord_ports, hports]
    exact bne_iff_ne

/-- Settles O21: an instruction's outcome has its own text on the ports, and that text is legal. -/
theorem renderedTextsAreLegal : Obligations.RenderedTextsAreLegal := by
  intro i s
  obtain ⟨hne, hlegal⟩ := isNonemptyLegal_textOf i
  obtain ⟨hprint, hhead, hlast⟩ := isLegalText_iff.mp hlegal
  exact ⟨_, exec_eq i s, hne, fun c hc => by simpa [isPrintable] using hprint c hc, hhead, hlast⟩

/-- Settles O22: the bound by the template's shape, and by the definition of TEXT_MAX for the open texts. -/
theorem renderedTextsKeepTheLengthBound : Obligations.RenderedTextsKeepTheLengthBound := by
  refine ⟨fun i s => ⟨_, exec_eq i s, length_textOf_le_textMax i, fun htid => ?_⟩, fun s => ⟨⟨_, rfl, ?_⟩, ⟨_, rfl, ?_⟩⟩⟩
  · obtain ⟨hid, htext⟩ := ports_of_exec (exec_eq i s)
    rw [hid] at htid
    rw [htext]
    exact length_textOf_le htid
  · rfl
  · rfl

/-- Settles O15: the field outputs are wires from the input, whatever the template id and the text. -/
theorem fieldOutputsAreWiresOfTheInput : Obligations.FieldOutputsAreWiresOfTheInput := by
  intro s s1 w hp hr
  obtain ⟨text, hports⟩ := Block.exists_ports_eq_drive Config.fxText w
  refine ⟨_, step_of_readRecord hp hr, ?_⟩
  rw [finishRecord_ports, hports]
  exact ⟨toNat_opField w, toNat_xField w, toNat_yField w, toNat_nField w, toNat_kkField w, toNat_nnnField w⟩

/-- Settles O24: the one digit of an index below 16. -/
theorem registerOperandIsVAndOneUppercaseDigit : Obligations.RegisterOperandIsVAndOneUppercaseDigit := by
  intro i
  rw [← digitChar_eq_getD i.isLt, reg, hexFixed, hexFixed, Nat.mod_eq_of_lt i.isLt]
  rfl

/-- Settles O25: 3 digits hold 12 bits, and one digit holds 4. -/
theorem addressAndNibbleOperandsReadBack : Obligations.AddressAndNibbleOperandsReadBack :=
  ⟨fun v => ⟨_, rfl, hexFixed_reads_back v.isLt⟩, fun v => ⟨_, rfl, hexFixed_reads_back v.isLt⟩⟩

/-- Settles O26: 2 hexadecimal digits hold 8 bits, and the decimal has as many digits as it needs. -/
theorem byteOperandShowsHexAndDecimal : Obligations.ByteOperandShowsHexAndDecimal := by
  intro v
  obtain ⟨hlen, hhex, hval⟩ := hexFixed_reads_back (k := 2) v.isLt
  exact ⟨_, _, rfl, hlen, hhex, hval, dec_reads_back v.toNat⟩

end Sys2Proof.Machine

/-! PROOFS, 41_primary_0_to_4: what the word of a well-formed instruction decodes to and shows, once for all instructions, and from
it the templates of primary 0x0 (O1, O2), of JP and CALL (O2) and with a byte operand (O3). -/

namespace Sys2Proof.Machine

/-! ### The text of a template, by the number of its operands (R115) -/

theorem render_one (m a : Text) : render m [a] = m ++ [' '] ++ a := rfl

theorem render_two (m a b : Text) : render m [a, b] = m ++ [' '] ++ a ++ [',', ' '] ++ b := by
  simp [render, joinOps]

/-! ### What the word of an instruction decodes to and shows -/

/-- An instruction's outcome shows its own word, and the result Recognized with its own template id and text (R117). -/
theorem exec_shows (i : Instr) (s : State) :
    ∃ t, exec i s = .next t ∧ t.ports.insn = encode i ∧
      t.ports.result = .recognized (BitVec.ofNat 6 i.templateId) (textOf i) :=
  ⟨_, exec_eq i s, rfl, Ports.result_drive (encode i) (textOf i) (templateId_ne_zero i)⟩

/-- The word of a well-formed instruction decodes to it and shows its template id and its text. -/
theorem DecodesAs.of_wellFormed {i : Instr} {text : Text} (h : i.wellFormed = true) (htext : textOf i = text) :
    DecodesAs (encode i) i (BitVec.ofNat 6 i.templateId) text :=
  ⟨decode_encode h, htext ▸ exec_shows i⟩

/-! ### The obligations of 41_primary_0_to_4 -/

/-- Settles O1: `CLS` and `RET` are well formed with every value of the four bits that their rows do not test. -/
theorem clsAndRetDecodeWhateverX : Obligations.ClsAndRetDecodeWhateverX :=
  fun x => ⟨.of_wellFormed (i := .cls x) rfl rfl, .of_wellFormed (i := .ret x) rfl rfl⟩

/-- Settles O2: `JP` and `CALL` are well formed with every address, and `SYS` with those whose low byte is not `CLS`'s or `RET`'s. -/
theorem sysJpCallDecodeToTheirAddress : Obligations.SysJpCallDecodeToTheirAddress := by
  intro nnn
  refine ⟨fun hcls hret => ?_, ?_, ?_⟩
  · exact .of_wellFormed (i := .sys nnn) (Instr.wellFormed_sys.mpr ⟨hcls, hret⟩) (render_one _ _)
  · exact .of_wellFormed (i := .jp nnn) rfl (render_one _ _)
  · exact .of_wellFormed (i := .call nnn) rfl (render_one _ _)

/-- Settles O3: the five templates with a byte are well formed with every register and byte, and their text is of two operands. -/
theorem byteFormsDecodeToRegisterAndByte : Obligations.ByteFormsDecodeToRegisterAndByte := by
  intro x kk
  refine ⟨?_, ?_, ?_, ?_, ?_⟩
  · exact .of_wellFormed (i := .seByte x kk) rfl (render_two _ _ _)
  · exact .of_wellFormed (i := .sneByte x kk) rfl (render_two _ _ _)
  · exact .of_wellFormed (i := .ldByte x kk) rfl (render_two _ _ _)
  · exact .of_wellFormed (i := .addByte x kk) rfl (render_two _ _ _)
  · exact .of_wellFormed (i := .rnd x kk) rfl (render_two _ _ _)

end Sys2Proof.Machine

/-! PROOFS, 42_primary_5_to_7: what it takes for a word to be Unrecognized, once for all spaces, and from it and from
`DecodesAs.of_wellFormed` the two register comparisons (O4). -/

namespace Sys2Proof.Machine

/-! ### What a rejected word shows -/

/-- A word that the decoder rejects is Unrecognized for that reason: a step that reads it drives it with template id 0 (R107). -/
theorem IsUnrecognized.of_decode_error {w : Word} {space : UnrecognizedSpace}
    (h : decode w = .error (.unrecognized space)) : IsUnrecognized w space :=
  ⟨h, fun _ _ hp hr => ⟨_, step_of_decode_error hp hr h, rfl, Ports.result_unrecognized w⟩⟩

/-! ### The obligations of 42_primary_5_to_7 -/

/-- Settles O4: the two comparisons are well formed with every pair of registers, and primaries 0x5 and 0x9 reject exactly the
words whose low nibble is not 0. -/
theorem seAndSneRegistersDecodeOnNibbleZero : Obligations.SeAndSneRegistersDecodeOnNibbleZero := by
  intro x y n
  refine ⟨?_, ?_, fun hn => ⟨?_, ?_⟩⟩
  · exact .of_wellFormed (i := .seReg x y) rfl (render_two _ _ _)
  · exact .of_wellFormed (i := .sneReg x y) rfl (render_two _ _ _)
  · exact .of_decode_error (by simpa [decode_eq_error_iff, decodeOp5_eq_error_iff] using hn)
  · exact .of_decode_error (by simpa [decode_eq_error_iff, decodeOp9_eq_error_iff] using hn)

end Sys2Proof.Machine

/-! PROOFS, 43_alu_8: from `DecodesAs.of_wellFormed` the nine templates of primary 0x8 (O5), and from
`IsUnrecognized.of_decode_error` the selector values that primaries 0x8 and 0xE reject (O10). -/

namespace Sys2Proof.Machine

/-! ### The obligations of 43_alu_8 -/

/-- Settles O5: the nine templates are well formed with every pair of registers, and their text is of two operands. -/
theorem aluFormsDecodeToBothRegisters : Obligations.AluFormsDecodeToBothRegisters := by
  intro x y
  refine ⟨?_, ?_, ?_, ?_, ?_, ?_, ?_, ?_, ?_⟩
  · exact .of_wellFormed (i := .ldReg x y) rfl (render_two _ _ _)
  · exact .of_wellFormed (i := .orReg x y) rfl (render_two _ _ _)
  · exact .of_wellFormed (i := .andReg x y) rfl (render_two _ _ _)
  · exact .of_wellFormed (i := .xorReg x y) rfl (render_two _ _ _)
  · exact .of_wellFormed (i := .addReg x y) rfl (render_two _ _ _)
  · exact .of_wellFormed (i := .subReg x y) rfl (render_two _ _ _)
  · exact .of_wellFormed (i := .shrReg x y) rfl (render_two _ _ _)
  · exact .of_wellFormed (i := .subnReg x y) rfl (render_two _ _ _)
  · exact .of_wellFormed (i := .shlReg x y) rfl (render_two _ _ _)

/-- Settles O10: primary 0x8 rejects exactly the words with one of the seven nibbles, and primary 0xE exactly those whose low byte
is neither `SKP`'s nor `SKNP`'s. -/
theorem otherSelectorsOf8AndEAreUnrecognized : Obligations.OtherSelectorsOf8AndEAreUnrecognized := by
  intro x y n kk
  refine ⟨fun hn => ?_, fun hkk => ?_⟩
  · exact .of_decode_error (by simpa [decode_eq_error_iff, decodeOp8_eq_error_iff] using hn)
  · exact .of_decode_error (by simpa [decode_eq_error_iff, decodeOpE_eq_error_iff] using hkk)

end Sys2Proof.Machine

/-! PROOFS, 44_primary_9_to_D: from `DecodesAs.of_wellFormed` the two templates whose first operand is a literal (O6), and `DRW`,
the one template of three operands (O7). -/

namespace Sys2Proof.Machine

/-! ### The text of a template with three operands (R115) -/

theorem render_three (m a b c : Text) : render m [a, b, c] = m ++ [' '] ++ a ++ [',', ' '] ++ b ++ [',', ' '] ++ c := by
  simp [render, joinOps]

/-! ### The obligations of 44_primary_9_to_D -/

/-- Settles O6: the two templates are well formed with every address, and their text is of two operands, the first one the same
for every address. -/
theorem ldIAndJpV0DecodeWithLiteralOperand : Obligations.LdIAndJpV0DecodeWithLiteralOperand := by
  intro nnn
  refine ⟨?_, ?_⟩
  · exact .of_wellFormed (i := .ldI nnn) rfl (render_two ['L', 'D'] litI (addr nnn))
  · exact .of_wellFormed (i := .jpV0 nnn) rfl (render_two ['J', 'P'] litV0 (addr nnn))

/-- Settles O7: `DRW` is well formed with every pair of registers and every nibble, 0 included, and its text is of three operands. -/
theorem drwDecodesToTwoRegistersAndNibble : Obligations.DrwDecodesToTwoRegistersAndNibble :=
  fun x y n => .of_wellFormed (i := .drw x y n) rfl (render_three _ _ _ _)

end Sys2Proof.Machine

/-! PROOFS, 45_primary_E_F: from `DecodesAs.of_wellFormed` the two templates of primary 0xE (O8) and the nine forms of primary 0xF
(O9), and from `IsUnrecognized.of_decode_error` the selector bytes that primary 0xF rejects (O11). -/

namespace Sys2Proof.Machine

/-! ### The obligations of 45_primary_E_F -/

/-- Settles O8: the two templates are well formed with every register, and their text is of one operand. -/
theorem skpAndSknpDecode : Obligations.SkpAndSknpDecode := by
  intro x
  refine ⟨?_, ?_⟩
  · exact .of_wellFormed (i := .skp x) rfl (render_one _ _)
  · exact .of_wellFormed (i := .sknp x) rfl (render_one _ _)

/-- Settles O11: primary 0xF rejects exactly the words whose low byte is not one of the nine selectors. -/
theorem otherSelectorBytesOfFAreUnrecognized : Obligations.OtherSelectorBytesOfFAreUnrecognized := by
  intro x kk hkk
  exact .of_decode_error (by simpa [decode_eq_error_iff, decodeOpF_eq_error_iff] using hkk)

/-- Settles O9: the nine forms are well formed with every register and their text is the open one (R219), and no neighbour that
the rules name is a selector (R220). -/
theorem fxFormsDecodeWithOpenText : Obligations.FxFormsDecodeWithOpenText := by
  intro x
  refine ⟨?_, ?_, ?_, ?_, ?_, ?_, ?_, ?_, ?_, fun kk hkk => ?_⟩
  · exact .of_wellFormed (i := .fx07 x) rfl rfl
  · exact .of_wellFormed (i := .fx0A x) rfl rfl
  · exact .of_wellFormed (i := .fx15 x) rfl rfl
  · exact .of_wellFormed (i := .fx18 x) rfl rfl
  · exact .of_wellFormed (i := .fx1E x) rfl rfl
  · exact .of_wellFormed (i := .fx29 x) rfl rfl
  · exact .of_wellFormed (i := .fx33 x) rfl rfl
  · exact .of_wellFormed (i := .fx55 x) rfl rfl
  · exact .of_wellFormed (i := .fx65 x) rfl rfl
  · refine otherSelectorBytesOfFAreUnrecognized x kk ?_
    revert kk
    decide

end Sys2Proof.Machine

/-! PROOFS, 60_exceptions: the step at each action before the loop, and from it the argument check (O36) and the opening of the file
(O37, O38); that every step before the end of a run answers a next state (O41). -/

namespace Sys2Proof.Machine

/-! ### The step at each action before the loop (R263) -/

section
variable {s : State}

theorem step_of_checkArgs (h : s.phase = .checkArgs) : step s = .next (checkArgs s) := by
  simp [step, h]

theorem step_of_openFile (h : s.phase = .openFile) : step s = .next (openFile s) := by
  simp [step, h]

theorem step_of_initCounter (h : s.phase = .initCounter) : step s = .next (initCounter s) := by
  simp [step, h]

/-- The path is the one positional argument (R247). -/
theorem State.path_of_argv {path : Text} (h : s.argv = [path]) : s.path = path := by
  simp [State.path, h]

/-- A file that is not found ends the run with the message that names its path (R248). -/
theorem openFile_of_not_found (h : findFile s.disk s.path = none) :
    openFile s = exitRun (s.print Config.openErrStream (Config.openErrText s.path)) 1 := by
  simp [openFile, h]

end

/-! ### Every step before the end answers a next state (R240) -/

/-- A record of the loop answers a next state, whether or not there is one and whatever its word. -/
theorem loopStep_answers (s : State) : ∃ t, loopStep s = .next t := by
  rcases loopStep_cases s with ⟨-, hend⟩ | ⟨w, i, -, -, hexec⟩ | ⟨w, e, -, -, hunrec⟩
  · exact ⟨_, hend⟩
  · exact ⟨_, hexec.trans (exec_eq i s.advance)⟩
  · exact ⟨_, hunrec⟩

/-- A step answers a next state unless the run has ended. -/
theorem step_answers_or_exited (s : State) : (∃ t, step s = .next t) ∨ ∃ code, s.phase = .exited code := by
  cases hp : s.phase with
  | checkArgs => exact .inl ⟨_, step_of_checkArgs hp⟩
  | openFile => exact .inl ⟨_, step_of_openFile hp⟩
  | initCounter => exact .inl ⟨_, step_of_initCounter hp⟩
  | loop => exact .inl (by rw [step_of_loop hp]; exact loopStep_answers s)
  | exited code => exact .inr ⟨code, rfl⟩

/-- No step refuses, and the only fault is the one after the end (R240, R252). -/
theorem State.stepIsSafe_all (s : State) : s.stepIsSafe := by
  rcases step_answers_or_exited s with ⟨t, hnext⟩ | ⟨code, hp⟩
  · simp [stepIsSafe, hnext]
  · simp [stepIsSafe, step_of_exited hp, hp]

/-! ### The obligations of 60_exceptions -/

/-- Settles O41: a step that answers no next state is one of an ended run; the two outcomes of a decode are next states. -/
theorem noStepFaultsOrRefusesBeforeTheEnd : Obligations.NoStepFaultsOrRefusesBeforeTheEnd := by
  refine ⟨fun s hrun => ?_, State.stepIsSafe_all, fun i s => ⟨_, exec_eq i s⟩, fun w s => ⟨_, rfl⟩⟩
  exact (step_answers_or_exited s).resolve_right fun ⟨code, hp⟩ => hrun code hp

/-- Settles O36: the check opens the file next for one argument alone, and otherwise prints the usage text and exits. -/
theorem wrongArgumentCountIsAUsageError : Obligations.WrongArgumentCountIsAUsageError := by
  intro s hp
  rw [step_of_checkArgs hp]
  rcases checkArgs_cases s with ⟨path, hargv, heq⟩ | ⟨hlen, heq⟩ <;> rw [heq]
  · exact ⟨fun hne => absurd (by simp [hargv]) hne, fun _ => rfl⟩
  · exact ⟨fun _ => rfl, fun hone => absurd hone hlen⟩

/-- Settles O37: a path that names no file ends the run, with the message on either one of the two outputs. -/
theorem unopenableFileExitsOne : Obligations.UnopenableFileExitsOne := by
  intro s path hp hargv hnone
  obtain rfl := State.path_of_argv hargv
  rw [step_of_openFile hp, openFile_of_not_found hnone]
  cases Config.openErrStream with
  | stdout => rfl
  | stderr => rfl

/-- Settles O38: the file found is acquired, and the counter is set in the step after. -/
theorem openedFileIsAcquiredAndCounterSetToEntry : Obligations.OpenedFileIsAcquiredAndCounterSetToEntry := by
  refine fun s => ⟨fun path m hp hargv hfound => ?_, step_of_initCounter⟩
  obtain rfl := State.path_of_argv hargv
  rw [step_of_openFile hp, openFile_of_found hfound]
  rfl

end Sys2Proof.Machine

/-! PROOFS, 70_reset_and_hazards: the states that a run starts from, reset among them (O44, O45), the start of a command line's run up
to its main loop (O39), and the order of a record's effects (O32). -/

namespace Sys2Proof.Machine

/-! ### The states that a run starts from (R261) -/

/-- The outputs at the start are the block's own for the word 0x0000, which is `SYS 0x000` (R142, log 2). -/
theorem Block.ports_zero : Block.ports Config.fxText 0 = Ports.ofZeroWord :=
  Block.ports_of_decode_ok (i := .sys 0) rfl

/-- Reset is the start of a command line with no name, argument or file (log 3). -/
theorem State.reset_eq_commandLine : State.reset = State.commandLine [] [] [] := rfl

/-- Before the argument check no stream is held and its bytes are none; the files are the ones given. -/
theorem State.Inv.commandLine (prog : Text) (argv : List Text) {disk : List FileEntry}
    (hdisk : ∀ f ∈ disk, Memory.wf f.contents = true ∧ Memory.isFile f.contents = true) :
    (State.commandLine prog argv disk).Inv where
  files := ⟨rfl, rfl, hdisk⟩
  framed := ⟨rfl, Nat.le_refl 0, nofun⟩
  counted := nofun
  held := by simp [StreamHeldInRun, State.commandLine, State.reset]
  code := nofun
  ports := Block.ports_zero.symm

/-- Nothing is printed before the argument check. -/
theorem State.PrintedIsListing.commandLine (prog : Text) (argv : List Text) (disk : List FileEntry) :
    (State.commandLine prog argv disk).PrintedIsListing :=
  ⟨fun _ => ⟨rfl, rfl⟩, nofun⟩

/-- At the start of the Driver contract the stream is held at position 0, and is the sequence of the bytes given. -/
theorem State.Inv.driverContract (bytes : List Byte) (entry : Nat) : (State.driverContract bytes entry).Inv where
  files := ⟨Memory.wf_ofBytes bytes, Memory.isFile_ofBytes bytes, nofun⟩
  framed := ⟨rfl, Nat.zero_le _, fun _ => rfl⟩
  counted := nofun
  held := ⟨fun _ => .inl rfl, fun _ => rfl⟩
  code := nofun
  ports := Block.ports_zero.symm

/-- Nothing is printed before the counter is set. -/
theorem State.PrintedIsListing.driverContract (bytes : List Byte) (entry : Nat) :
    (State.driverContract bytes entry).PrintedIsListing :=
  ⟨fun _ => ⟨rfl, rfl⟩, nofun⟩

/-! ### The obligations of 70_reset_and_hazards -/

/-- Settles O44: reset is the start of a command line, with no files to speak of. -/
theorem resetSatisfiesTheInvariants : Obligations.ResetSatisfiesTheInvariants := by
  unfold Obligations.ResetSatisfiesTheInvariants
  rw [State.reset_eq_commandLine]
  exact ⟨.commandLine [] [] nofun, .commandLine [] [] [], rfl, rfl, rfl⟩

/-- Settles O45: the invariants hold at either kind of start, where the counter is ENTRY and the position 0. -/
theorem startedRunsSatisfyTheInvariant : Obligations.StartedRunsSatisfyTheInvariant := by
  refine ⟨fun bytes entry => ?_, fun prog argv disk hdisk => ?_⟩
  · exact ⟨.driverContract bytes entry, .driverContract bytes entry, rfl, rfl⟩
  · exact ⟨.commandLine prog argv hdisk, .commandLine prog argv disk, rfl, rfl⟩

/-- Settles O39: two steps to the setting of the counter, which is the third. -/
theorem commandLineRunReachesTheLoopAtEntry200 : Obligations.CommandLineRunReachesTheLoopAtEntry200 := by
  intro prog path disk m hm
  rw [run_commandLine hm prog 1, run_succ_of_step (step_of_initCounter rfl)]
  exact ⟨_, rfl, rfl, rfl, rfl, rfl, rfl, rfl, rfl⟩

/-- Settles O32: the step finishes the record read, whose line has the counter from before the increment and the text that R108's
result shows. -/
theorem eachRecordPrintsOneLineAndCountsOne : Obligations.EachRecordPrintsOneLineAndCountsOne := by
  intro s s1 w hp hr
  refine ⟨_, step_of_readRecord hp hr, hp, rfl, rfl, ?_⟩
  rw [finishRecord_stdout, Block.ports_insn, listingLine]
  cases Block.decode Config.fxText w with
  | recognized tid text => rfl
  | unrecognized => rfl

end Sys2Proof.Machine
